-- ==== Sys2Proof/Word.lean ====
section
/-! DEFINITION. The machine's word and the console's character. -/

namespace Sys2Proof

/-- The one data width of the machine: a register, a memory cell, an address, an instruction word
(spec/00_scope.md R6). -/
abbrev Word := BitVec 16

/-- A console character, and a trap vector (spec/00_scope.md R6, spec/92_eei_decisions.md D9). -/
abbrev Byte := BitVec 8

end Sys2Proof
end

