-- ==== Sys2Proof/Config.lean ====
section
/-! DEFINITION. What the spec leaves to the one who sets the machine up (spec/00_scope.md R6).
`start_pc` is no constant here: it is an argument of the host's boot operations (log 14). -/

namespace Sys2Proof.Config

/-- `IN_PROMPT`: the finite byte string IN writes before it reads (spec/43_trap_system.md R146,
spec/92_eei_decisions.md D11). It has no body: whatever is proved holds for every prompt (log 13). -/
opaque inPrompt : List Byte

/-- `HALT_NOTICE`: the finite byte string HALT writes (spec/43_trap_system.md R148,
spec/92_eei_decisions.md D12). It has no body: whatever is proved holds for every notice (log 13). -/
opaque haltNotice : List Byte

end Sys2Proof.Config
end

