-- ==== Sys2Proof/Syntax.lean ====
section
/-! DEFINITION. The instructions: one constructor per row of spec/opcode_table.json. -/

namespace Sys2Proof

/-- A general register (spec/10_state.md R20). -/
inductive Reg where
  | r0 | r1 | r2 | r3 | r4 | r5 | r6 | r7
  deriving DecidableEq, Repr

/-- The number a register field gives this register (spec/30_encoding.md R64). -/
def Reg.num : Reg → Nat
  | .r0 => 0
  | .r1 => 1
  | .r2 => 2
  | .r3 => 3
  | .r4 => 4
  | .r5 => 5
  | .r6 => 6
  | .r7 => 7

/-- One instruction with the fields of its format (spec/30_encoding.md R62, R63). An immediate is the
raw field; its sign extension belongs to the meaning (R65). The bits a format ignores are no part
of the instruction (R68, log 3). -/
inductive Instr where
  /-- BR, R110. `nzp` is ir[11:9] read as one 3-bit value, n highest (R67). -/
  | br (nzp : BitVec 3) (off : BitVec 9)
  /-- ADD, register form, R100. -/
  | addReg (dr sr1 sr2 : Reg)
  /-- ADD, immediate form, R101. -/
  | addImm (dr sr1 : Reg) (imm : BitVec 5)
  /-- LD, R120. -/
  | ld (dr : Reg) (off : BitVec 9)
  /-- ST, R124. -/
  | st (sr : Reg) (off : BitVec 9)
  /-- JSR, R112. -/
  | jsr (off : BitVec 11)
  /-- JSRR, R113. -/
  | jsrr (base : Reg)
  /-- AND, register form, R102. -/
  | andReg (dr sr1 sr2 : Reg)
  /-- AND, immediate form, R103. -/
  | andImm (dr sr1 : Reg) (imm : BitVec 5)
  /-- LDR, R122. -/
  | ldr (dr base : Reg) (off : BitVec 6)
  /-- STR, R126. -/
  | str (sr base : Reg) (off : BitVec 6)
  /-- RTI, R140. -/
  | rti
  /-- NOT, R104. -/
  | notReg (dr sr : Reg)
  /-- LDI, R121. -/
  | ldi (dr : Reg) (off : BitVec 9)
  /-- STI, R125. -/
  | sti (sr : Reg) (off : BitVec 9)
  /-- JMP, and RET which is JMP R7, R111. -/
  | jmp (base : Reg)
  /-- RES, R141. -/
  | res
  /-- LEA, R123. -/
  | lea (dr : Reg) (off : BitVec 9)
  /-- TRAP, R142, with every vector: the undefined ones decode too (R69). -/
  | trap (vect : Byte)
  deriving DecidableEq, Repr

/-! The spellings of spec/30_encoding.md R72: other names of instructions above. -/

/-- RET is JMP R7. -/
abbrev Instr.ret : Instr := .jmp .r7
/-- GETC is TRAP x20. -/
abbrev Instr.getc : Instr := .trap 0x20#8
/-- OUT is TRAP x21. -/
abbrev Instr.out : Instr := .trap 0x21#8
/-- PUTS is TRAP x22. -/
abbrev Instr.puts : Instr := .trap 0x22#8
/-- IN is TRAP x23. -/
abbrev Instr.inChar : Instr := .trap 0x23#8
/-- PUTSP is TRAP x24. -/
abbrev Instr.putsp : Instr := .trap 0x24#8
/-- HALT is TRAP x25. -/
abbrev Instr.halt : Instr := .trap 0x25#8
/-- NOP is BR with no condition bit and offset 0. -/
abbrev Instr.nop : Instr := .br 0#3 0#9

end Sys2Proof
end

