-- ==== Sys2Proof/WellFormed.lean ====
section
/-! DEFINITION. Well-formedness, of instructions and of instruction words.

An instruction's fields carry their ranges in their types, and the spec allows every value of every
field (spec/30_encoding.md R64, R65, R69): there is no field check left to make. Two checks
remain that the spec does give: which trap vectors are defined (R70), and which words hold the
canonical value in the bits their format ignores (R63, R68). Neither makes an instruction
unrunnable: an undefined vector is TRAP's to fault on, and ignored bits are ignored. -/

namespace Sys2Proof

/-- Every instruction of the type is one the machine has (R69), undefined vectors included. -/
def Instr.wellFormed (_ : Instr) : Bool := true

/-- The vectors of R70's table. -/
def trapVectorDefined (v : Byte) : Bool :=
  0x20#8 ≤ v && v ≤ 0x25#8

/-- The instruction raises no fault in any state: it is not a TRAP with an undefined vector
(spec/60_exceptions.md R170). -/
def Instr.faultFree : Instr → Bool
  | .trap v => trapVectorDefined v
  | .br .. | .jmp .. | .jsr .. | .jsrr .. => true
  | .addReg .. | .addImm .. | .andReg .. | .andImm .. | .notReg .. => true
  | .ld .. | .ldi .. | .ldr .. | .lea .. | .st .. | .sti .. | .str .. => true
  | .rti | .res => true

/-- The bits a word's format ignores hold the canonical values of R63's table. JSR, BR, the PC9 and
BASE6 formats and the immediate forms ignore no bit; RES has no canonical form, so there is no
value to check. -/
def canonicalWord (w : Word) : Bool :=
  match w.getLsbD 15, w.getLsbD 14, w.getLsbD 13, w.getLsbD 12 with
  | false, false, false, true => w.getLsbD 5 || w.extractLsb' 3 2 == 0b00#2
  | false, true, false, true => w.getLsbD 5 || w.extractLsb' 3 2 == 0b00#2
  | false, true, false, false =>
    w.getLsbD 11 || (w.extractLsb' 9 2 == 0b00#2 && w.extractLsb' 0 6 == 0b000000#6)
  | true, false, false, true => w.extractLsb' 0 6 == 0b111111#6
  | true, true, false, false => w.extractLsb' 9 3 == 0b000#3 && w.extractLsb' 0 6 == 0b000000#6
  | true, false, false, false => w.extractLsb' 0 12 == 0x000#12
  | true, true, true, true => w.extractLsb' 8 4 == 0b0000#4
  | _, _, _, _ => true

end Sys2Proof
end

