-- ==== Sys2Proof/Decode.lean ====
section
/-! DEFINITION. From words to instructions and back (spec/30_encoding.md R60 to R70).
Opcode values and field positions are the spec's; the spec took 14 of the values and every position
but 15..12 from general knowledge (log 2). -/

namespace Sys2Proof

/-! ## Fields -/

/-- The register a 3-bit field names (R64). -/
def Reg.ofField (b : BitVec 3) : Reg :=
  match b.getLsbD 2, b.getLsbD 1, b.getLsbD 0 with
  | false, false, false => .r0
  | false, false, true => .r1
  | false, true, false => .r2
  | false, true, true => .r3
  | true, false, false => .r4
  | true, false, true => .r5
  | true, true, false => .r6
  | true, true, true => .r7

/-- The 3-bit field that names a register (R64). -/
def Reg.field : Reg → BitVec 3
  | .r0 => 0b000#3
  | .r1 => 0b001#3
  | .r2 => 0b010#3
  | .r3 => 0b011#3
  | .r4 => 0b100#3
  | .r5 => 0b101#3
  | .r6 => 0b110#3
  | .r7 => 0b111#3

/-- DR or SR, ir[11:9]. -/
def fieldDr (w : Word) : Reg := Reg.ofField (w.extractLsb' 9 3)
/-- SR1, BaseR, or NOT's SR, ir[8:6]. -/
def fieldSr1 (w : Word) : Reg := Reg.ofField (w.extractLsb' 6 3)
/-- SR2, ir[2:0]. -/
def fieldSr2 (w : Word) : Reg := Reg.ofField (w.extractLsb' 0 3)
/-- BR's condition bits, ir[11:9] (R67). -/
def fieldNzp (w : Word) : BitVec 3 := w.extractLsb' 9 3
/-- imm5, ir[4:0]. -/
def fieldImm5 (w : Word) : BitVec 5 := w.extractLsb' 0 5
/-- offset6, ir[5:0]. -/
def fieldOff6 (w : Word) : BitVec 6 := w.extractLsb' 0 6
/-- PCoffset9, ir[8:0]. -/
def fieldOff9 (w : Word) : BitVec 9 := w.extractLsb' 0 9
/-- PCoffset11, ir[10:0]. -/
def fieldOff11 (w : Word) : BitVec 11 := w.extractLsb' 0 11
/-- trapvect8, ir[7:0]. -/
def fieldVect (w : Word) : Byte := w.extractLsb' 0 8

/-! ## The decoder -/

/-- The instruction a word stands for: the opcode map of R62 over ir[15:12], the mode bits ir[5] and
ir[11] of R66, the fields of R63. It reads no ignored bit (R68), and every word decodes (R69). -/
def decode (w : Word) : Instr :=
  match w.getLsbD 15, w.getLsbD 14, w.getLsbD 13, w.getLsbD 12 with
  | false, false, false, false => .br (fieldNzp w) (fieldOff9 w)
  | false, false, false, true =>
    if w.getLsbD 5 then .addImm (fieldDr w) (fieldSr1 w) (fieldImm5 w)
    else .addReg (fieldDr w) (fieldSr1 w) (fieldSr2 w)
  | false, false, true, false => .ld (fieldDr w) (fieldOff9 w)
  | false, false, true, true => .st (fieldDr w) (fieldOff9 w)
  | false, true, false, false =>
    if w.getLsbD 11 then .jsr (fieldOff11 w) else .jsrr (fieldSr1 w)
  | false, true, false, true =>
    if w.getLsbD 5 then .andImm (fieldDr w) (fieldSr1 w) (fieldImm5 w)
    else .andReg (fieldDr w) (fieldSr1 w) (fieldSr2 w)
  | false, true, true, false => .ldr (fieldDr w) (fieldSr1 w) (fieldOff6 w)
  | false, true, true, true => .str (fieldDr w) (fieldSr1 w) (fieldOff6 w)
  | true, false, false, false => .rti
  | true, false, false, true => .notReg (fieldDr w) (fieldSr1 w)
  | true, false, true, false => .ldi (fieldDr w) (fieldOff9 w)
  | true, false, true, true => .sti (fieldDr w) (fieldOff9 w)
  | true, true, false, false => .jmp (fieldSr1 w)
  | true, true, false, true => .res
  | true, true, true, false => .lea (fieldDr w) (fieldOff9 w)
  | true, true, true, true => .trap (fieldVect w)

/-- Why a string of bits given from outside the machine is no instruction. A fetch never meets these:
it reads one whole cell (R60). -/
inductive DecodeReject where
  /-- More bits than the one word of an instruction (R60). -/
  | longerThanAWord
  /-- The number does not fit in the bits it is said to have. -/
  | valueTooWide
  deriving DecidableEq, Repr

/-- Decoding of `nbits` bits given as a number, bit 0 least significant; bits above `nbits` are 0. -/
def decodeBits (nbits w : Nat) : Except DecodeReject Instr :=
  if 16 < nbits then .error .longerThanAWord
  else if 2 ^ nbits ≤ w then .error .valueTooWide
  else .ok (decode (BitVec.ofNat 16 w))

/-- The instruction the decoder reads from a row of the opcode table. -/
def decodeTableWord (nbits w : Nat) : Option Instr :=
  match decodeBits nbits w with
  | .ok i => some i
  | .error _ => none

/-! ## The encoder -/

/-- A field placed with its lowest bit at bit `lo` of a word. -/
def place {n : Nat} (lo : Nat) (v : BitVec n) : Word := v.setWidth 16 <<< lo

/-- A word of format OPR, ignored bits ir[4:3] at their canonical 00. -/
def encodeOpr (op : BitVec 4) (dr sr1 sr2 : Reg) : Word :=
  place 12 op ||| place 9 dr.field ||| place 6 sr1.field ||| place 5 0b0#1 ||| place 3 0b00#2
    ||| place 0 sr2.field
/-- A word of format OPI. -/
def encodeOpi (op : BitVec 4) (dr sr1 : Reg) (imm : BitVec 5) : Word :=
  place 12 op ||| place 9 dr.field ||| place 6 sr1.field ||| place 5 0b1#1 ||| place 0 imm
/-- A word of format PC9, and of BR with its condition bits in the register's place. -/
def encodePc9 (op : BitVec 4) (f : BitVec 3) (off : BitVec 9) : Word :=
  place 12 op ||| place 9 f ||| place 0 off
/-- A word of format BASE6. -/
def encodeBase6 (op : BitVec 4) (r base : Reg) (off : BitVec 6) : Word :=
  place 12 op ||| place 9 r.field ||| place 6 base.field ||| place 0 off
/-- A word of format NOT, ignored bits ir[5:0] at their canonical 111111. -/
def encodeNot (dr sr : Reg) : Word :=
  place 12 0b1001#4 ||| place 9 dr.field ||| place 6 sr.field ||| place 0 0b111111#6
/-- A word of format JMP or JSRR: only BaseR beside the opcode, every other bit 0. -/
def encodeBase (op : BitVec 4) (base : Reg) : Word :=
  place 12 op ||| place 9 0b000#3 ||| place 6 base.field ||| place 0 0b000000#6
/-- A word of format JSR. -/
def encodeJsr (off : BitVec 11) : Word :=
  place 12 0b0100#4 ||| place 11 0b1#1 ||| place 0 off
/-- A word of format TRAP, ignored bits ir[11:8] at their canonical 0000. -/
def encodeTrap (v : Byte) : Word :=
  place 12 0b1111#4 ||| place 8 0b0000#4 ||| place 0 v
/-- A word of format NONE. -/
def encodeNone (op : BitVec 4) : Word :=
  place 12 op ||| place 0 0x000#12

/-- The canonical word of an instruction (R63's encoding strings, ignored bits at R63's canonical
values). RES has no canonical form; the model writes 0xD000, as R71 does (log 4). -/
def encode : Instr → Word
  | .br nzp off => encodePc9 0b0000#4 nzp off
  | .addReg dr sr1 sr2 => encodeOpr 0b0001#4 dr sr1 sr2
  | .addImm dr sr1 imm => encodeOpi 0b0001#4 dr sr1 imm
  | .ld dr off => encodePc9 0b0010#4 dr.field off
  | .st sr off => encodePc9 0b0011#4 sr.field off
  | .jsr off => encodeJsr off
  | .jsrr base => encodeBase 0b0100#4 base
  | .andReg dr sr1 sr2 => encodeOpr 0b0101#4 dr sr1 sr2
  | .andImm dr sr1 imm => encodeOpi 0b0101#4 dr sr1 imm
  | .ldr dr base off => encodeBase6 0b0110#4 dr base off
  | .str sr base off => encodeBase6 0b0111#4 sr base off
  | .rti => encodeNone 0b1000#4
  | .notReg dr sr => encodeNot dr sr
  | .ldi dr off => encodePc9 0b1010#4 dr.field off
  | .sti sr off => encodePc9 0b1011#4 sr.field off
  | .jmp base => encodeBase 0b1100#4 base
  | .res => encodeNone 0b1101#4
  | .lea dr off => encodePc9 0b1110#4 dr.field off
  | .trap v => encodeTrap v

end Sys2Proof
end

