-- ==== Sys2Proof/Machine/State.lean ====
section
/-! DEFINITION. The machine's state, its reset, and the reasons a step could stop. -/

namespace Sys2Proof.Machine

/-- R0..R7 (spec/10_state.md R20). -/
structure RegFile where
  r0 : Word
  r1 : Word
  r2 : Word
  r3 : Word
  r4 : Word
  r5 : Word
  r6 : Word
  r7 : Word
  deriving DecidableEq, Repr

/-- Memory as (address, cell) pairs, addresses rising, no cell that holds what an unlisted address
reads as (`Memory.wf`). A cell is 16 bits wide: the machine has no smaller unit
(spec/20_memory.md R40, R46; log 1). -/
abbrev Memory := List (Nat × Word)

/-- The lifecycle states (spec/10_state.md R28). -/
inductive Lifecycle where
  | idle | running | halted
  deriving DecidableEq, Repr

/-- The machine's one fault and what its record carries (spec/60_exceptions.md R172). -/
inductive FaultRecord where
  /-- Code 1: a TRAP with an undefined `vector`, at `address`. -/
  | undefinedTrapVector (vector : Byte) (address : Word)
  deriving DecidableEq, Repr

/-- The console's two read operations (spec/60_exceptions.md R180). -/
inductive ConsoleRead where
  /-- read-one-char-blocking-no-echo, GETC's. -/
  | noEcho
  /-- read-one-char-blocking-with-echo, IN's. -/
  | echo
  deriving DecidableEq, Repr

/-- The routines that scan memory (spec/30_encoding.md R83). -/
inductive ScanRoutine where
  | puts | putsp
  deriving DecidableEq, Repr

/-- A scan that never ends, and the cell it reads next (spec/60_exceptions.md R186 row 4; log 11). -/
structure OpenScan where
  routine : ScanRoutine
  addr : Word
  deriving DecidableEq, Repr

/-- Everything the spec gives the machine (spec/10_state.md section 5; INVENTORY.md lists each field
with its rule and reset value). -/
structure State where
  /-- R0..R7. -/
  regs : RegFile
  /-- The program counter; PC_inc while an instruction executes (R22). -/
  pc : Word
  /-- COND: n is bit 2, z bit 1, p bit 0 (R23). -/
  cond : BitVec 3
  /-- The running flag (R27). -/
  running : Bool
  /-- The lifecycle state (R28). -/
  lifecycle : Lifecycle
  /-- The fault status (R30). -/
  faultStatus : Option FaultRecord
  /-- The input wait (R31): set exactly when it is `some`, naming the read that waits (log 8). -/
  inputWait : Option ConsoleRead
  /-- The endless scan the machine is inside, if any (60_exceptions.md R186; log 11). -/
  openScan : Option OpenScan
  /-- The instruction word (R29; log 12). -/
  ir : Word
  /-- Memory (20_memory.md R40). -/
  mem : Memory
  /-- The characters supplied and not yet read, next first (60_exceptions.md R181; log 9). -/
  consoleIn : List Byte
  /-- The characters written, oldest first (60_exceptions.md R182; log 9). -/
  consoleOut : List Byte
  /-- How many of them the latest flush made visible (60_exceptions.md R180; log 10). -/
  consoleFlushed : Nat
  deriving DecidableEq, Repr

/-- The reasons a step stops the machine without a next state: none. The machine's one fault,
UndefinedTrapVector, is an exception whose effects the spec describes, so it leads to a next state
with the record in `State.faultStatus` (spec/60_exceptions.md R170, R171; log 15). No
constructor, so nothing raises one: safe. -/
inductive Fault where
  deriving DecidableEq, Repr

/-- The reasons an instruction is refused. -/
inductive Refusal where
  /-- Raised by an arm of `exec` that has no meaning yet; no arm of this model is one. Safe. -/
  | notModelled (mnemonic : String)
  deriving DecidableEq, Repr

/-- What a step or an instruction answers. -/
abbrev Result := Host.Outcome State Fault Refusal

/-- The register file after construction (spec/10_state.md R20). -/
def RegFile.zeroed : RegFile :=
  { r0 := 0x0000#16, r1 := 0x0000#16, r2 := 0x0000#16, r3 := 0x0000#16
    r4 := 0x0000#16, r5 := 0x0000#16, r6 := 0x0000#16, r7 := 0x0000#16 }

/-- The machine right after reset, which is construction (spec/70_reset_and_hazards.md R200). The spec
gives no value for `ir` (log 12) and leaves the console streams to the host (logs 9 and 10). -/
def State.reset : State :=
  { regs := RegFile.zeroed
    pc := 0x0000#16
    cond := 0b000#3
    running := false
    lifecycle := .idle
    faultStatus := none
    inputWait := none
    openScan := none
    ir := 0x0000#16
    mem := []
    consoleIn := []
    consoleOut := []
    consoleFlushed := 0 }

end Sys2Proof.Machine
end

