-- ==== Sys2Proof/Machine/Ops.lean ====
section
/-! DEFINITION. The named operations over registers, memory, console and run control, and the taking
of the machine's one exception. -/

namespace Sys2Proof.Machine

/-! ## Registers (spec/10_state.md R20) -/

/-- Read a register. -/
def RegFile.get (f : RegFile) : Reg → Word
  | .r0 => f.r0
  | .r1 => f.r1
  | .r2 => f.r2
  | .r3 => f.r3
  | .r4 => f.r4
  | .r5 => f.r5
  | .r6 => f.r6
  | .r7 => f.r7

/-- Write a register. -/
def RegFile.set (f : RegFile) (r : Reg) (v : Word) : RegFile :=
  match r with
  | .r0 => { f with r0 := v }
  | .r1 => { f with r1 := v }
  | .r2 => { f with r2 := v }
  | .r3 => { f with r3 := v }
  | .r4 => { f with r4 := v }
  | .r5 => { f with r5 := v }
  | .r6 => { f with r6 := v }
  | .r7 => { f with r7 := v }

/-- `x[i]` (spec/00_scope.md R8). -/
def State.reg (s : State) (r : Reg) : Word := s.regs.get r

/-- `x[i] <- v` (spec/00_scope.md R8). -/
def State.setReg (s : State) (r : Reg) (v : Word) : State := { s with regs := s.regs.set r v }

/-- `pc <- target` (spec/00_scope.md R8). -/
def State.setPc (s : State) (v : Word) : State := { s with pc := v }

/-- `cond <- v` (spec/00_scope.md R8). -/
def State.setCond (s : State) (c : BitVec 3) : State := { s with cond := c }

/-- Load the instruction word (spec/10_state.md R29). -/
def State.setIr (s : State) (w : Word) : State := { s with ir := w }

/-! ## Memory (spec/20_memory.md R40 to R43) -/

/-- What a cell nothing has written reads as (R41). -/
def Memory.unwritten : Word := 0x0000#16

/-- The cell listed at key `k`, or what an unlisted one reads as. -/
def Memory.lookup : Memory → Nat → Word
  | [], _ => Memory.unwritten
  | (k', v) :: m, k => if k' = k then v else Memory.lookup m k

/-- `MemRead(addr, 1)` (R42). Every 16-bit address has a cell (R40, R44). -/
def Memory.read (m : Memory) (a : Word) : Word := m.lookup a.toNat

/-- The memory without a listed cell at key `k`. -/
def Memory.erase (m : Memory) (k : Nat) : Memory := m.filter fun c => c.1 != k

/-- List `(k, v)` before the first cell with a larger key. -/
def Memory.insert : Memory → Nat → Word → Memory
  | [], k, v => [(k, v)]
  | c :: m, k, v => if c.1 < k then c :: Memory.insert m k v else (k, v) :: c :: m

/-- `MemWrite(addr, 1, v)` (R43), in the canonical form: a cell that would read as if unlisted is not
listed. -/
def Memory.write (m : Memory) (a : Word) (v : Word) : Memory :=
  if v = Memory.unwritten then m.erase a.toNat else (m.erase a.toNat).insert a.toNat v

/-- The canonical form: addresses strictly rising and inside the space of 65536 cells, and no listed
cell that reads as if unlisted. -/
abbrev Memory.wf (m : Memory) : Prop :=
  m.Pairwise (fun c d => c.1 < d.1) ∧ ∀ c ∈ m, c.1 < 65536 ∧ c.2 ≠ Memory.unwritten

/-- Read the cell at an address. -/
def State.memRead (s : State) (a : Word) : Word := s.mem.read a

/-- Write the cell at an address. -/
def State.memWrite (s : State) (a v : Word) : State := { s with mem := s.mem.write a v }

/-! ## Run control (spec/10_state.md R27, R28) -/

/-- Write the running flag. -/
def State.setRunning (s : State) (b : Bool) : State := { s with running := b }

/-- Write the lifecycle state. -/
def State.setLifecycle (s : State) (l : Lifecycle) : State := { s with lifecycle := l }

/-- Write the fault status (R30). -/
def State.setFaultStatus (s : State) (f : Option FaultRecord) : State := { s with faultStatus := f }

/-- Write the input wait (R31). -/
def State.setInputWait (s : State) (w : Option ConsoleRead) : State := { s with inputWait := w }

/-- Enter, advance or leave an endless scan (spec/60_exceptions.md R186; log 11). -/
def State.setOpenScan (s : State) (o : Option OpenScan) : State := { s with openScan := o }

/-- Fetch: load `ir` from memory[PC], then add 1 to PC mod 2^16 (spec/30_encoding.md R80, R55). -/
def State.fetch (s : State) : State := (s.setIr (s.memRead s.pc)).setPc (s.pc + 1)

/-- The engine's test of the running flag after an instruction (spec/30_encoding.md R82). -/
def State.loopTest (s : State) : State :=
  if s.running then s else s.setLifecycle .halted

/-- What the engine does next, by lifecycle, input wait and endless scan (spec/10_state.md R28, R31;
spec/30_encoding.md R80; spec/60_exceptions.md R186). -/
inductive EngineAction where
  /-- No step: Idle or Halted. -/
  | rest
  /-- Blocked in a console read. -/
  | awaitInput (k : ConsoleRead)
  /-- Inside an endless scan. -/
  | scanOn (o : OpenScan)
  /-- One instruction cycle. -/
  | cycle
  deriving DecidableEq, Repr

/-- The engine's choice (see `EngineAction`; logs 6, 8 and 11). -/
def State.engineAction (s : State) : EngineAction :=
  match s.lifecycle with
  | .idle => .rest
  | .halted => .rest
  | .running =>
    match s.inputWait with
    | some k => .awaitInput k
    | none =>
      match s.openScan with
      | some o => .scanOn o
      | none => .cycle

/-! ## Trap entry, the exception, and trap return (spec/60_exceptions.md R171, R175, R176) -/

/-- Trap entry: the return address PC_inc goes to R7, and nothing else is saved or changed (R175). -/
def State.enterTrap (s : State) : State := s.setReg .r7 s.pc

/-- Raise UndefinedTrapVector, after trap entry: record the vector and the TRAP's own address
PC_inc - 1, and clear the running flag (R171). PC, COND, R0..R6, memory and console stay. -/
def State.raiseUndefinedTrapVector (s : State) (v : Byte) : State :=
  (s.setFaultStatus (some (.undefinedTrapVector v (s.pc - 1)))).setRunning false

/-- Trap return is automatic: PC already holds PC_inc, and nothing was saved but R7, which stays
(R176). -/
def State.returnFromTrap (s : State) : State := s

/-- The fault's cause code: 0 none, 1 UndefinedTrapVector (R172). -/
def State.faultCode (s : State) : Nat :=
  match s.faultStatus with
  | none => 0
  | some (.undefinedTrapVector _ _) => 1

/-! ## The console (spec/60_exceptions.md R180 to R182) -/

/-- Append characters to the output, in order: `ConsoleWrite` for each. -/
def State.consoleWriteAll (s : State) (bs : List Byte) : State :=
  { s with consoleOut := s.consoleOut ++ bs }

/-- `ConsoleWrite(c)` (R180). -/
def State.consoleWrite (s : State) (c : Byte) : State := s.consoleWriteAll [c]

/-- `ConsoleFlush()`: every character written so far becomes visible (R180; log 10). -/
def State.consoleFlush (s : State) : State := { s with consoleFlushed := s.consoleOut.length }

/-- Replace the pending input. -/
def State.setConsoleIn (s : State) (bs : List Byte) : State := { s with consoleIn := bs }

/-- The console supplies characters, after those already pending (R181). The environment's act, in any
state; a blocked machine takes the next one in its next step (log 8). -/
def State.consoleSupply (s : State) (bs : List Byte) : State := s.setConsoleIn (s.consoleIn ++ bs)

/-- `ConsoleReadNoEcho()` or `ConsoleReadEcho()` when a character is available: it is consumed, and
with echo it is appended to the output (R180). `none`: no character, the read blocks. -/
def State.consoleRead (s : State) (k : ConsoleRead) : Option (Byte × State) :=
  match s.consoleIn with
  | [] => none
  | c :: rest =>
    match k with
    | .noEcho => some (c, s.setConsoleIn rest)
    | .echo => some (c, (s.setConsoleIn rest).consoleWrite c)

end Sys2Proof.Machine
end

