-- ==== Sys2Proof/Machine/Boot.lean ====
section
/-! DEFINITION. The host's side of a run: loading, setting PC, starting (spec/20_memory.md R50,
spec/70_reset_and_hazards.md R203 to R207). Nothing here is part of a step. An operation the spec
forbids the host outside Idle answers `none` there (log 19). -/

namespace Sys2Proof.Machine

/-- The host writes one cell, only while Idle (R50). -/
def State.hostWriteCell (s : State) (a v : Word) : Option State :=
  if s.lifecycle = .idle then some (s.memWrite a v) else none

/-- The host sets PC to the start address, only while Idle (R203). -/
def State.hostSetPc (s : State) (startPc : Word) : Option State :=
  if s.lifecycle = .idle then some (s.setPc startPc) else none

/-- Start: in Idle, the running flag is set and the lifecycle becomes Running (R204); elsewhere it has
no effect (R207; log 19). -/
def State.hostStart (s : State) : State :=
  if s.lifecycle = .idle then (s.setRunning true).setLifecycle .running else s

/-- One program image: its origin and the words that follow it (R50). -/
structure Image where
  origin : Word
  words : List Word
  deriving DecidableEq, Repr

/-- Write words upwards from an address, mod 2^16: `MemWrite(origin + k, 1, word_k)` (R50). -/
def Memory.writeWords (m : Memory) : Word → List Word → Memory
  | _, [] => m
  | a, w :: ws => Memory.writeWords (m.write a w) (a + 1) ws

/-- Load one image, only while Idle. -/
def State.hostLoad (s : State) (i : Image) : Option State :=
  if s.lifecycle = .idle then some { s with mem := s.mem.writeWords i.origin i.words } else none

/-- Load images in the order given; a later one overwrites where they overlap (R203,
spec/92_eei_decisions.md D22). -/
def State.hostLoadAll (s : State) : List Image → Option State
  | [] => some s
  | i :: is => (s.hostLoad i).bind (State.hostLoadAll · is)

/-- The boot order of R203: construct, load, set PC, start. R203 speaks of one or more images; that a
boot with none starts too, on memory as constructed, is the model's choice (log 22). -/
def boot (images : List Image) (startPc : Word) : Option State :=
  ((State.reset.hostLoadAll images).bind (State.hostSetPc · startPc)).map State.hostStart

/-- Pairs of bytes as big-endian words; `none` for an odd number of bytes. -/
def wordsOfBytes : List Byte → Option (List Word)
  | [] => some []
  | [_] => none
  | hi :: lo :: rest => (wordsOfBytes rest).map ((hi ++ lo) :: ·)

/-- An image from a byte stream: a big-endian origin, then big-endian words (R50). `none` is the
loader's error, and then the core does not start (R203; log 21). -/
def imageOfBytes (bs : List Byte) : Option Image :=
  match wordsOfBytes bs with
  | some (o :: ws) => some { origin := o, words := ws }
  | some [] => none
  | none => none

/-- Boot from byte streams; one bad image and nothing is started (R203). -/
def bootBytes (files : List (List Byte)) (startPc : Word) : Option State :=
  (files.mapM imageOfBytes).bind (boot · startPc)

/-- The cells of the assembler's `.FILL`, `.BLKW` and `.STRINGZ` (spec/30_encoding.md R72). -/
def cellsFill (v : Word) : List Word := [v]
/-- `n` cells holding 0 (R72). -/
def cellsBlkw (n : Nat) : List Word := List.replicate n 0x0000#16
/-- One cell per character, then a zero cell (R72). -/
def cellsStringz (cs : List Byte) : List Word := cs.map (·.zeroExtend 16) ++ [0x0000#16]

end Sys2Proof.Machine
end

