-- ==== Sys2Proof/Machine/Operands.lean ====
section
/-! DEFINITION. Operand forms: extensions, byte halves, second operands and addressing modes. -/

namespace Sys2Proof.Machine

/-- `sext_N` (spec/00_scope.md R9). -/
def sext {n : Nat} (v : BitVec n) : Word := v.signExtend 16

/-- `zext_8` of a character (spec/00_scope.md R8). -/
def zext8 (c : Byte) : Word := c.zeroExtend 16

/-- `lo8(v)`, v[7:0] (spec/00_scope.md R8). -/
def lo8 (v : Word) : Byte := v.extractLsb' 0 8

/-- `hi8(v)`, v[15:8] (spec/00_scope.md R8). -/
def hi8 (v : Word) : Byte := v.extractLsb' 8 8

/-- `PC_inc + sext_9(off)`, mod 2^16 (spec/42_load_store.md R127, spec/20_memory.md R44). -/
def State.pcRelative9 (s : State) (off : BitVec 9) : Word := s.pc + sext off

/-- `PC_inc + sext_11(off)`, mod 2^16 (spec/41_control.md R112). -/
def State.pcRelative11 (s : State) (off : BitVec 11) : Word := s.pc + sext off

/-- The indirect mode: the cell at `PC_inc + sext_9(off)` holds the operand's address
(spec/42_load_store.md R127). -/
def State.indirect (s : State) (off : BitVec 9) : Word := s.memRead (s.pcRelative9 off)

/-- `x[BaseR] + sext_6(off)`, mod 2^16; the base register is not changed (spec/42_load_store.md R127). -/
def State.baseOffset (s : State) (base : Reg) (off : BitVec 6) : Word := s.reg base + sext off

end Sys2Proof.Machine
end

