-- ==== Sys2Proof/Machine/Control.lean ====
section
/-! DEFINITION. BR, JMP (RET), JSR, JSRR (spec/41_control.md). None writes COND (R26 of 10_state.md). -/

namespace Sys2Proof.Machine

/-- BR (R110): taken when the condition bits and COND share a set bit. -/
def execBr (nzp : BitVec 3) (off : BitVec 9) (s : State) : Result :=
  .next (if nzp &&& s.cond ≠ 0b000#3 then s.setPc (s.pcRelative9 off) else s)

/-- JMP, and RET (R111). -/
def execJmp (base : Reg) (s : State) : Result :=
  .next (s.setPc (s.reg base))

/-- Save the return address PC_inc in R7, as JSR and JSRR do first (R112, R113). -/
def State.link (s : State) : State := s.setReg .r7 s.pc

/-- JSR (R112). -/
def execJsr (off : BitVec 11) (s : State) : Result :=
  .next (s.link.setPc (s.link.pcRelative11 off))

/-- JSRR (R113). The base register is read after R7 is written, so JSRR R7 falls through
(spec/92_eei_decisions.md D6; log 17). -/
def execJsrr (base : Reg) (s : State) : Result :=
  .next (s.link.setPc (s.link.reg base))

end Sys2Proof.Machine
end

