-- ==== Sys2Proof/Machine/Flags.lean ====
section
/-! DEFINITION. The condition register (spec/10_state.md R23 to R26). -/

namespace Sys2Proof.Machine

/-- N, n = bit 2 (R23). -/
def Cond.n : BitVec 3 := 0b100#3
/-- Z, z = bit 1 (R23). -/
def Cond.z : BitVec 3 := 0b010#3
/-- P, p = bit 0 (R23). -/
def Cond.p : BitVec 3 := 0b001#3

/-- The flag a value gives: Z if it is 0, N if bit 15 is set, else P (R25). -/
def condOf (v : Word) : BitVec 3 :=
  if v = 0x0000#16 then Cond.z
  else if v.getLsbD 15 then Cond.n
  else Cond.p

/-- `setcc(i)`: COND from the register's value after the write (R25). -/
def State.setcc (s : State) (r : Reg) : State := s.setCond (condOf (s.reg r))

/-- Write a result and set COND from it: what the seven instructions of R26 do last. -/
def State.writeResult (s : State) (dr : Reg) (v : Word) : State := (s.setReg dr v).setcc dr

end Sys2Proof.Machine
end

