-- ==== Sys2Proof/Machine/LoadStore.lean ====
section
/-! DEFINITION. LD, LDI, LDR, LEA, ST, STI, STR (spec/42_load_store.md). -/

namespace Sys2Proof.Machine

/-- LD (R120). -/
def execLd (dr : Reg) (off : BitVec 9) (s : State) : Result :=
  .next (s.writeResult dr (s.memRead (s.pcRelative9 off)))

/-- LDI (R121): the pointer is read first, then the operand. -/
def execLdi (dr : Reg) (off : BitVec 9) (s : State) : Result :=
  .next (s.writeResult dr (s.memRead (s.indirect off)))

/-- LDR (R122). -/
def execLdr (dr base : Reg) (off : BitVec 6) (s : State) : Result :=
  .next (s.writeResult dr (s.memRead (s.baseOffset base off)))

/-- LEA (R123): the address itself, no memory access. -/
def execLea (dr : Reg) (off : BitVec 9) (s : State) : Result :=
  .next (s.writeResult dr (s.pcRelative9 off))

/-- ST (R124). -/
def execSt (sr : Reg) (off : BitVec 9) (s : State) : Result :=
  .next (s.memWrite (s.pcRelative9 off) (s.reg sr))

/-- STI (R125): the pointer is read before the write. -/
def execSti (sr : Reg) (off : BitVec 9) (s : State) : Result :=
  .next (s.memWrite (s.indirect off) (s.reg sr))

/-- STR (R126). -/
def execStr (sr base : Reg) (off : BitVec 6) (s : State) : Result :=
  .next (s.memWrite (s.baseOffset base off) (s.reg sr))

end Sys2Proof.Machine
end

