-- ==== Sys2Proof/Machine/Operate.lean ====
section
/-! DEFINITION. ADD, AND, NOT (spec/40_operate.md). Each meaning takes the state after the fetch, where
PC holds PC_inc (log 5). -/

namespace Sys2Proof.Machine

/-- ADD, register form (R100). -/
def execAddReg (dr sr1 sr2 : Reg) (s : State) : Result :=
  .next (s.writeResult dr (s.reg sr1 + s.reg sr2))

/-- ADD, immediate form (R101). -/
def execAddImm (dr sr1 : Reg) (imm : BitVec 5) (s : State) : Result :=
  .next (s.writeResult dr (s.reg sr1 + sext imm))

/-- AND, register form (R102). -/
def execAndReg (dr sr1 sr2 : Reg) (s : State) : Result :=
  .next (s.writeResult dr (s.reg sr1 &&& s.reg sr2))

/-- AND, immediate form (R103). -/
def execAndImm (dr sr1 : Reg) (imm : BitVec 5) (s : State) : Result :=
  .next (s.writeResult dr (s.reg sr1 &&& sext imm))

/-- NOT (R104). -/
def execNotReg (dr sr : Reg) (s : State) : Result :=
  .next (s.writeResult dr (~~~(s.reg sr)))

end Sys2Proof.Machine
end

