-- ==== Sys2Proof/Machine/Trap.lean ====
section
/-! DEFINITION. RTI, RES, TRAP and its built-in routines (spec/43_trap_system.md). A routine runs inside
its TRAP's step (R151), writes no PC and no COND (R150). -/

namespace Sys2Proof.Machine

/-! ## Reading a character (GETC, IN) -/

/-- A blocking read and what follows it: with a character available, the wait is cleared, R0 takes the
character zero-extended, and the read with echo (IN) is followed by a flush (R143, R146). With none,
the input wait is set and nothing else changes (spec/10_state.md R31, spec/60_exceptions.md R181). A
blocked machine runs this again when a character has come (log 8). -/
def State.readChar (s : State) (k : ConsoleRead) : State :=
  match s.consoleRead k with
  | none => s.setInputWait (some k)
  | some (c, t) =>
    let u := (t.setInputWait none).setReg .r0 (zext8 c)
    match k with
    | .noEcho => u
    | .echo => u.consoleFlush

/-! ## Scanning memory (PUTS, PUTSP) -/

/-- What one cell makes a scan write, and whether the scan ends there. PUTS ends at a cell equal to
0x0000 and writes lo8 of every other (R145). PUTSP writes lo8 then hi8 and ends at the first zero
byte (R147). -/
def scanCell (r : ScanRoutine) (w : Word) : List Byte × Bool :=
  match r with
  | .puts => if w = 0x0000#16 then ([], true) else ([lo8 w], false)
  | .putsp =>
    if lo8 w = 0x00#8 then ([], true)
    else if hi8 w = 0x00#8 then ([lo8 w], true)
    else ([lo8 w, hi8 w], false)

/-- Everything a scan from `a` writes if it ends within `fuel` cells; `none` if it does not. Addresses
go up by 1 mod 2^16. -/
def scanBytes (r : ScanRoutine) (m : Memory) : Nat → Word → Option (List Byte)
  | 0, _ => none
  | fuel + 1, a =>
    match scanCell r (m.read a) with
    | (bs, true) => some bs
    | (bs, false) => (scanBytes r m fuel (a + 1)).map (bs ++ ·)

/-- The number of cells in memory. A scan changes no cell, so one that has not ended after reading
every cell never ends (spec/92_eei_decisions.md D14). -/
def scanLimit : Nat := 65536

/-- PUTS or PUTSP from the cell R0 addresses (R145, R147): the whole scan in this step, then the flush.
If memory holds no end for it, the step never completes: the machine enters the endless scan, which
later steps carry on cell by cell (log 11). -/
def State.runScan (s : State) (r : ScanRoutine) : State :=
  match scanBytes r s.mem scanLimit (s.reg .r0) with
  | some bs => (s.consoleWriteAll bs).consoleFlush
  | none => s.setOpenScan (some { routine := r, addr := s.reg .r0 })

/-- One cell of an endless scan: its characters are written and the address goes up; were the cell an
end, the routine would end with its flush (R145, R147). -/
def State.scanOneCell (s : State) (o : OpenScan) : State :=
  match scanCell o.routine (s.memRead o.addr) with
  | (bs, true) => ((s.consoleWriteAll bs).consoleFlush).setOpenScan none
  | (bs, false) => (s.consoleWriteAll bs).setOpenScan (some { o with addr := o.addr + 1 })

/-! ## The routines, each after trap entry -/

/-- GETC, vector 0x20 (R143). -/
def State.trapGetc (s : State) : State := s.readChar .noEcho

/-- OUT, vector 0x21 (R144). -/
def State.trapOut (s : State) : State := (s.consoleWrite (lo8 (s.reg .r0))).consoleFlush

/-- PUTS, vector 0x22 (R145). -/
def State.trapPuts (s : State) : State := s.runScan .puts

/-- IN, vector 0x23 (R146): the prompt and a flush come before the read. -/
def State.trapIn (s : State) : State :=
  ((s.consoleWriteAll Config.inPrompt).consoleFlush).readChar .echo

/-- PUTSP, vector 0x24 (R147). -/
def State.trapPutsp (s : State) : State := s.runScan .putsp

/-- HALT, vector 0x25 (R148): the engine goes to Halted after this instruction (R82). -/
def State.trapHalt (s : State) : State :=
  ((s.consoleWriteAll Config.haltNotice).consoleFlush).setRunning false

/-- The dispatch of R70 on the vector; every other value raises the fault. -/
def State.dispatchTrap (s : State) (v : Byte) : State :=
  if v = 0x20#8 then s.trapGetc
  else if v = 0x21#8 then s.trapOut
  else if v = 0x22#8 then s.trapPuts
  else if v = 0x23#8 then s.trapIn
  else if v = 0x24#8 then s.trapPutsp
  else if v = 0x25#8 then s.trapHalt
  else s.raiseUndefinedTrapVector v

/-! ## The instructions -/

/-- TRAP (R142): R7 is written before the vector is looked at, and PC is not written. -/
def execTrap (v : Byte) (s : State) : Result :=
  .next ((s.enterTrap.dispatchTrap v).returnFromTrap)

/-- RTI (R140): a no-op; the fetch has already advanced PC. -/
def execRti (s : State) : Result := .next s

/-- RES (R141): a no-op; the fetch has already advanced PC. -/
def execRes (s : State) : Result := .next s

end Sys2Proof.Machine
end

