-- ==== Sys2Proof/Machine/Step.lean ====
section
/-! DEFINITION. One step of the engine (spec/30_encoding.md R80 to R82). -/

namespace Sys2Proof.Machine

/-- One instruction cycle: fetch, increment, the one handler, the loop test (R80, R81, R82). -/
def cycle (s : State) : Host.Outcome State Fault Refusal :=
  match exec (decode s.fetch.ir) s.fetch with
  | .next t => .next t.loopTest
  | .fault f => .fault f
  | .refused r => .refused r

/-- One step. Idle and Halted stay as they are (log 6); a blocked machine tries its read again (log 8);
an endless scan writes one more cell (log 11); otherwise one instruction cycle. -/
def step (s : State) : Host.Outcome State Fault Refusal :=
  match s.engineAction with
  | .rest => .next s
  | .awaitInput k => .next (s.readChar k)
  | .scanOn o => .next (s.scanOneCell o)
  | .cycle => cycle s

/-- The state in which the next step fetches and runs the `nbits`-bit word `w`: the word lies in the
cell PC addresses, and the machine is Running with no wait, as the host's load and start would
leave it (log 7). -/
def State.withFetchWord (s : State) (nbits w : Nat) : State :=
  ((((s.memWrite s.pc (BitVec.ofNat 16 (w % 2 ^ nbits))).setRunning true).setLifecycle
    .running).setInputWait none).setOpenScan none

end Sys2Proof.Machine
end

