-- ==== Sys2Proof/Safety.lean ====
section
/-! DEFINITION. What a good state is, and what a safe run is. -/

namespace Sys2Proof.Machine

/-- COND holds no flag or exactly one of N, Z, P (spec/10_state.md R23). -/
abbrev State.CondLegal (s : State) : Prop :=
  s.cond = 0b000#3 ∨ s.cond = 0b100#3 ∨ s.cond = 0b010#3 ∨ s.cond = 0b001#3

/-- The vector of the TRAP that a console read belongs to (spec/60_exceptions.md R180). -/
def ConsoleRead.vector : ConsoleRead → Byte
  | .noEcho => 0x20#8
  | .echo => 0x23#8

/-- The vector of the TRAP that a scan belongs to (spec/30_encoding.md R70). -/
def ScanRoutine.vector : ScanRoutine → Byte
  | .puts => 0x22#8
  | .putsp => 0x24#8

/-- The invariant of the machine between steps. Every state a boot makes has it, and every step keeps
it; a state without it is one no run reaches. -/
structure State.Inv (s : State) : Prop where
  /-- Memory is in its canonical form. -/
  memWf : s.mem.wf
  /-- R23. -/
  condLegal : s.CondLegal
  /-- The running flag is true exactly in Running (10_state.md R28). -/
  runningIff : s.running = true ↔ s.lifecycle = .running
  /-- A fault is recorded only in Halted: the first one stops the run (60_exceptions.md R172). -/
  faultHalted : s.faultStatus ≠ none → s.lifecycle = .halted
  /-- The record names an undefined vector and the TRAP at PC - 1 (60_exceptions.md R171, R172). -/
  faultRecord : ∀ v a, s.faultStatus = some (.undefinedTrapVector v a) →
    trapVectorDefined v = false ∧ a + 1 = s.pc
  /-- A machine that waits for input is Running, inside the TRAP `ir` holds (10_state.md R29, R31). -/
  waitInTrap : ∀ k, s.inputWait = some k →
    s.lifecycle = .running ∧ decode s.ir = .trap k.vector
  /-- A machine in an endless scan is Running, inside the TRAP `ir` holds, and waits for no input. -/
  scanInTrap : ∀ o, s.openScan = some o →
    s.lifecycle = .running ∧ s.inputWait = none ∧ decode s.ir = .trap o.routine.vector
  /-- An endless scan has no end in memory (43_trap_system.md R145, R147; 92_eei_decisions.md D14). -/
  scanEndless : ∀ o, s.openScan = some o → ∀ a, (scanCell o.routine (s.memRead a)).2 = false
  /-- A halted, waiting or scanning machine stopped in a TRAP: PC = R7 (70_reset_and_hazards.md R205,
  43_trap_system.md R142). -/
  stoppedInTrap : s.lifecycle = .halted ∨ s.inputWait ≠ none ∨ s.openScan ≠ none →
    s.pc = s.reg .r7
  /-- No more output is visible than was written. -/
  flushedLe : s.consoleFlushed ≤ s.consoleOut.length

/-- The engine is about to run an instruction cycle: Running, not blocked, in no endless scan
(spec/30_encoding.md R80). -/
abbrev State.Fetching (s : State) : Prop :=
  s.lifecycle = .running ∧ s.inputWait = none ∧ s.openScan = none

/-- The instruction at PC. -/
def State.current (s : State) : Instr := decode (s.memRead s.pc)

/-- A safe state: no fault is recorded. The premise the spec asks of claims about output
(spec/92_eei_decisions.md D7). -/
abbrev State.Safe (s : State) : Prop := s.faultStatus = none

end Sys2Proof.Machine
end

