-- ==== Sys2Proof/Certificates/Slice0/Obligations.lean ====
section
/-! DEFINITION. The statements for the provers, and the few words they are written in. A meaning is
stated over `exec`, whose state has PC at PC_inc (log 5); a whole step over `step`. The encoding
clauses follow R63's layout, which the spec takes from general knowledge (92_eei_decisions.md D2;
log 2). A statement that rests on a decision of the spec or on a form the model chose names it. -/

namespace Sys2Proof.Claims

open Sys2Proof.Machine

/-! ## Words of the statements -/

/-- `v[hi:lo]` as a number (spec/00_scope.md R7). -/
def field (w : Word) (hi lo : Nat) : Nat := w.toNat / 2 ^ lo % 2 ^ (hi + 1 - lo)

/-- `a` is `b` plus a signed number, mod 2^16 (spec/20_memory.md R44). -/
def IsSum (a b : Word) (k : Int) : Prop := (a.toNat : Int) = ((b.toNat : Int) + k) % 65536

/-- COND is what the sign of `v` asks for (spec/10_state.md R25). -/
def FlagsOf (v : Word) (c : BitVec 3) : Prop :=
  (v = 0x0000#16 → c = 0b010#3) ∧ (v.toInt < 0 → c = 0b100#3) ∧ (0 < v.toInt → c = 0b001#3)

/-- Every register but those listed reads as before. -/
def SameRegsExcept (rs : List Reg) (s t : State) : Prop := ∀ r, r ∉ rs → t.reg r = s.reg r

/-- Every cell reads as before. -/
def SameMemory (s t : State) : Prop := ∀ a, t.memRead a = s.memRead a

/-- The console's streams and what is visible of them are as before. -/
def SameConsole (s t : State) : Prop :=
  t.consoleIn = s.consoleIn ∧ t.consoleOut = s.consoleOut ∧ t.consoleFlushed = s.consoleFlushed

/-- Lifecycle, fault status and instruction word are as before. -/
def SameEngine (s t : State) : Prop :=
  t.lifecycle = s.lifecycle ∧ t.faultStatus = s.faultStatus ∧ t.ir = s.ir

/-- Nothing of the run control has changed: the engine, the running flag, and both waits. -/
def SameControl (s t : State) : Prop :=
  SameEngine s t ∧ t.running = s.running ∧ t.inputWait = s.inputWait ∧ t.openScan = s.openScan

/-- The frame of an instruction that writes one result register and COND, and no memory. -/
def ResultFrame (dr : Reg) (s t : State) : Prop :=
  SameRegsExcept [dr] s t ∧ t.pc = s.pc ∧ SameMemory s t ∧ SameConsole s t ∧ SameControl s t

/-- The frame of a control transfer: PC, and the listed registers. -/
def TransferFrame (rs : List Reg) (s t : State) : Prop :=
  SameRegsExcept rs s t ∧ t.cond = s.cond ∧ SameMemory s t ∧ SameConsole s t ∧ SameControl s t

/-- A store of register `sr` at the address `ea`: that cell takes its value, every other cell and
everything else stays. -/
def StoresOnly (ea : Word) (sr : Reg) (s t : State) : Prop :=
  (∀ a, a = ea → t.memRead a = s.reg sr ∧ ∀ b, b ≠ a → t.memRead b = s.memRead b) ∧
  SameRegsExcept [] s t ∧ t.pc = s.pc ∧ t.cond = s.cond ∧ SameConsole s t ∧ SameControl s t

/-- What every TRAP leaves alone, and the return address it saves (spec/43_trap_system.md R142,
R150). -/
def TrapFrame (rs : List Reg) (s t : State) : Prop :=
  t.reg .r7 = s.pc ∧ t.pc = s.pc ∧ t.cond = s.cond ∧ SameRegsExcept (.r7 :: rs) s t ∧
  SameMemory s t ∧ t.lifecycle = s.lifecycle ∧ t.ir = s.ir

/-- Everything written is visible, as R180's flush leaves it, in the form of log 10. -/
def AllFlushed (t : State) : Prop := t.consoleFlushed = t.consoleOut.length

/-- The register a flag-setting instruction writes its result to (spec/10_state.md R21, R26). -/
def resultReg : Instr → Option Reg
  | .addReg dr _ _ => some dr
  | .addImm dr _ _ => some dr
  | .andReg dr _ _ => some dr
  | .andImm dr _ _ => some dr
  | .notReg dr _ => some dr
  | .ld dr _ => some dr
  | .ldi dr _ => some dr
  | .ldr dr _ _ => some dr
  | .lea dr _ => some dr
  | .br .. | .jmp .. | .jsr .. | .jsrr .. | .st .. | .sti .. | .str .. => none
  | .rti | .res | .trap .. => none

/-- The instructions that write the link register R7 (spec/10_state.md R21). -/
def writesLink : Instr → Bool
  | .jsr .. | .jsrr .. | .trap .. => true
  | .addReg .. | .addImm .. | .andReg .. | .andImm .. | .notReg .. => false
  | .ld .. | .ldi .. | .ldr .. | .lea .. | .br .. | .jmp .. => false
  | .st .. | .sti .. | .str .. | .rti | .res => false

/-- The address an instruction stores to and the register it stores, on the state after its fetch
(spec/42_load_store.md R124 to R126). -/
def storeOf (i : Instr) (s : State) : Option (Word × Reg) :=
  match i with
  | .st sr off => some (s.pcRelative9 off, sr)
  | .sti sr off => some (s.indirect off, sr)
  | .str sr base off => some (s.baseOffset base off, sr)
  | .addReg .. | .addImm .. | .andReg .. | .andImm .. | .notReg .. => none
  | .ld .. | .ldi .. | .ldr .. | .lea .. => none
  | .br .. | .jmp .. | .jsr .. | .jsrr .. | .rti | .res | .trap .. => none

/-- The opcode R62's map gives an instruction (spec/30_encoding.md). -/
def opcodeNumber : Instr → Nat
  | .br .. => 0
  | .addReg .. | .addImm .. => 1
  | .ld .. => 2
  | .st .. => 3
  | .jsr .. | .jsrr .. => 4
  | .andReg .. | .andImm .. => 5
  | .ldr .. => 6
  | .str .. => 7
  | .rti => 8
  | .notReg .. => 9
  | .ldi .. => 10
  | .sti .. => 11
  | .jmp .. => 12
  | .res => 13
  | .lea .. => 14
  | .trap .. => 15

/-- The `k`-th cell after the one `a` addresses, mod 2^16. -/
def cellFrom (s : State) (a : Word) (k : Nat) : Word := s.memRead (a + BitVec.ofNat 16 k)

/-- The run from `t` never leaves an endless scan: after `n` steps the output is that of `s` followed by
`bytes` of each of `n` cells, from the one R0 addresses in `s` upwards, and of everything else only the
scan's own place has changed since `t`. -/
def ScansForever (bytes : Word → List Byte) (s t : State) : Prop :=
  ∀ n, ∃ o : OpenScan, Host.Core.run Sys2Proof.core n t = .next
    { t with
      openScan := some o
      consoleOut :=
        s.consoleOut ++ (List.range n).flatMap fun k => bytes (cellFrom s (s.reg .r0) k) }

/-- What a TRAP that enters an endless scan leaves alone beside `TrapFrame`: the console, the running
flag, the fault status and the input wait. -/
def EntersScanFrame (s t : State) : Prop :=
  SameConsole s t ∧ t.running = s.running ∧ t.faultStatus = s.faultStatus ∧
    t.inputWait = s.inputWait

/-- Some word of the image goes to the cell at `a` (spec/20_memory.md R50). -/
def Covers (i : Image) (a : Word) : Prop :=
  ∃ k, k < i.words.length ∧ i.origin + BitVec.ofNat 16 k = a

/-- Of all the words the images put in the cell at `a`, in the order they are written, the last is `w`
(spec/20_memory.md R50, spec/70_reset_and_hazards.md R203). -/
def LastLoaded (images : List Image) (a w : Word) : Prop :=
  ∃ before i after k, images = before ++ i :: after ∧ i.words[k]? = some w ∧
    i.origin + BitVec.ofNat 16 k = a ∧
    (∀ j, k < j → j < i.words.length → i.origin + BitVec.ofNat 16 j ≠ a) ∧
    ∀ l ∈ after, ¬ Covers l a

/-- Running `i` as an instruction cycle ends the run at its own address + 1, for good: that a halted
machine's step answers the same state is the model's form (log 6). -/
def EndsTheRun (i : Instr) : Prop :=
  ∀ s : State, s.Fetching → s.current = i →
    ∃ t : State, step s = .next t ∧ t.lifecycle = .halted ∧ t.running = false ∧
      t.pc = s.pc + 1 ∧ t.reg .r7 = s.pc + 1 ∧ ∀ n, Host.Core.run Sys2Proof.core n t = .next t

end Sys2Proof.Claims

open Sys2Proof Sys2Proof.Machine Sys2Proof.Claims

/-! ## Operate instructions (spec/40_operate.md) -/

/-- R100. -/
def Obligations.AddRegisterWrapsAndSetsFlags : Prop :=
  (∀ w : Word, w &&& 0xF020#16 = 0x1000#16 →
    ∃ dr sr1 sr2, decode w = .addReg dr sr1 sr2 ∧ dr.num = field w 11 9 ∧
      sr1.num = field w 8 6 ∧ sr2.num = field w 2 0) ∧
  ∀ (dr sr1 sr2 : Reg) (s : State), ∃ t, exec (.addReg dr sr1 sr2) s = .next t ∧
    (t.reg dr).toNat = ((s.reg sr1).toNat + (s.reg sr2).toNat) % 65536 ∧
    FlagsOf (t.reg dr) t.cond ∧ ResultFrame dr s t

/-- R101. -/
def Obligations.AddImmediateSignExtendsAndSetsFlags : Prop :=
  (∀ w : Word, w &&& 0xF020#16 = 0x1020#16 →
    ∃ dr sr1 imm, decode w = .addImm dr sr1 imm ∧ dr.num = field w 11 9 ∧
      sr1.num = field w 8 6 ∧ imm.toNat = field w 4 0) ∧
  ∀ (dr sr1 : Reg) (imm : BitVec 5) (s : State), ∃ t, exec (.addImm dr sr1 imm) s = .next t ∧
    IsSum (t.reg dr) (s.reg sr1) imm.toInt ∧ FlagsOf (t.reg dr) t.cond ∧ ResultFrame dr s t

/-- R102. -/
def Obligations.AndRegisterIsBitwise : Prop :=
  (∀ w : Word, w &&& 0xF020#16 = 0x5000#16 →
    ∃ dr sr1 sr2, decode w = .andReg dr sr1 sr2 ∧ dr.num = field w 11 9 ∧
      sr1.num = field w 8 6 ∧ sr2.num = field w 2 0) ∧
  ∀ (dr sr1 sr2 : Reg) (s : State), ∃ t, exec (.andReg dr sr1 sr2) s = .next t ∧
    (∀ j, (t.reg dr).getLsbD j = ((s.reg sr1).getLsbD j && (s.reg sr2).getLsbD j)) ∧
    FlagsOf (t.reg dr) t.cond ∧ ResultFrame dr s t

/-- R103: bits 4 and up of the immediate are its sign bit. -/
def Obligations.AndImmediateIsBitwise : Prop :=
  (∀ w : Word, w &&& 0xF020#16 = 0x5020#16 →
    ∃ dr sr1 imm, decode w = .andImm dr sr1 imm ∧ dr.num = field w 11 9 ∧
      sr1.num = field w 8 6 ∧ imm.toNat = field w 4 0) ∧
  ∀ (dr sr1 : Reg) (imm : BitVec 5) (s : State), ∃ t, exec (.andImm dr sr1 imm) s = .next t ∧
    (∀ j, (t.reg dr).getLsbD j = ((s.reg sr1).getLsbD j && imm.getLsbD (min j 4))) ∧
    FlagsOf (t.reg dr) t.cond ∧ ResultFrame dr s t

/-- R104. -/
def Obligations.NotComplements : Prop :=
  (∀ w : Word, w &&& 0xF000#16 = 0x9000#16 →
    ∃ dr sr, decode w = .notReg dr sr ∧ dr.num = field w 11 9 ∧ sr.num = field w 8 6) ∧
  ∀ (dr sr : Reg) (s : State), ∃ t, exec (.notReg dr sr) s = .next t ∧
    (t.reg dr).toNat = 65535 - (s.reg sr).toNat ∧ FlagsOf (t.reg dr) t.cond ∧ ResultFrame dr s t

/-! ## Control transfer (spec/41_control.md) -/

/-- R110. -/
def Obligations.BranchTakenExactlyOnSharedFlag : Prop :=
  (∀ w : Word, w &&& 0xF000#16 = 0x0000#16 →
    ∃ nzp off, decode w = .br nzp off ∧ nzp.toNat = field w 11 9 ∧ off.toNat = field w 8 0) ∧
  ∀ (nzp : BitVec 3) (off : BitVec 9) (s : State), ∃ t, exec (.br nzp off) s = .next t ∧
    ((∃ j, nzp.getLsbD j = true ∧ s.cond.getLsbD j = true) → IsSum t.pc s.pc off.toInt) ∧
    ((¬ ∃ j, nzp.getLsbD j = true ∧ s.cond.getLsbD j = true) → t.pc = s.pc) ∧
    TransferFrame [] s t

/-- R111. -/
def Obligations.JumpGoesToTheBaseRegister : Prop :=
  (∀ w : Word, w &&& 0xF000#16 = 0xC000#16 →
    ∃ base, decode w = .jmp base ∧ base.num = field w 8 6) ∧
  decode 0xC1C0#16 = Instr.ret ∧
  ∀ (base : Reg) (s : State), ∃ t, exec (.jmp base) s = .next t ∧
    t.pc = s.reg base ∧ TransferFrame [] s t

/-- R112. -/
def Obligations.JsrLinksAndJumpsRelative : Prop :=
  (∀ w : Word, w &&& 0xF800#16 = 0x4800#16 →
    ∃ off, decode w = .jsr off ∧ off.toNat = field w 10 0) ∧
  ∀ (off : BitVec 11) (s : State), ∃ t, exec (.jsr off) s = .next t ∧
    t.reg .r7 = s.pc ∧ IsSum t.pc s.pc off.toInt ∧ TransferFrame [.r7] s t

/-- R113: with BaseR = R7 the call falls through, which is the spec's decision D6 (log 17). -/
def Obligations.JsrrReadsTheBaseAfterLinking : Prop :=
  (∀ w : Word, w &&& 0xF800#16 = 0x4000#16 →
    ∃ base, decode w = .jsrr base ∧ base.num = field w 8 6) ∧
  ∀ (base : Reg) (s : State), ∃ t, exec (.jsrr base) s = .next t ∧
    t.reg .r7 = s.pc ∧ (base ≠ .r7 → t.pc = s.reg base) ∧ (base = .r7 → t.pc = s.pc) ∧
    TransferFrame [.r7] s t

/-! ## Loads and stores (spec/42_load_store.md) -/

/-- R120. -/
def Obligations.LdLoadsPcRelative : Prop :=
  (∀ w : Word, w &&& 0xF000#16 = 0x2000#16 →
    ∃ dr off, decode w = .ld dr off ∧ dr.num = field w 11 9 ∧ off.toNat = field w 8 0) ∧
  ∀ (dr : Reg) (off : BitVec 9) (s : State), ∃ t, exec (.ld dr off) s = .next t ∧
    IsSum (s.pcRelative9 off) s.pc off.toInt ∧ t.reg dr = s.memRead (s.pcRelative9 off) ∧
    FlagsOf (t.reg dr) t.cond ∧ ResultFrame dr s t

/-- R121. -/
def Obligations.LdiLoadsThroughThePointer : Prop :=
  (∀ w : Word, w &&& 0xF000#16 = 0xA000#16 →
    ∃ dr off, decode w = .ldi dr off ∧ dr.num = field w 11 9 ∧ off.toNat = field w 8 0) ∧
  ∀ (dr : Reg) (off : BitVec 9) (s : State), ∃ t, exec (.ldi dr off) s = .next t ∧
    IsSum (s.pcRelative9 off) s.pc off.toInt ∧
    t.reg dr = s.memRead (s.memRead (s.pcRelative9 off)) ∧
    FlagsOf (t.reg dr) t.cond ∧ ResultFrame dr s t

/-- R122. -/
def Obligations.LdrLoadsFromBasePlusOffset : Prop :=
  (∀ w : Word, w &&& 0xF000#16 = 0x6000#16 →
    ∃ dr base off, decode w = .ldr dr base off ∧ dr.num = field w 11 9 ∧
      base.num = field w 8 6 ∧ off.toNat = field w 5 0) ∧
  ∀ (dr base : Reg) (off : BitVec 6) (s : State), ∃ t, exec (.ldr dr base off) s = .next t ∧
    IsSum (s.baseOffset base off) (s.reg base) off.toInt ∧
    t.reg dr = s.memRead (s.baseOffset base off) ∧
    FlagsOf (t.reg dr) t.cond ∧ ResultFrame dr s t

/-- R123: the result does not depend on memory. -/
def Obligations.LeaComputesWithoutMemory : Prop :=
  (∀ w : Word, w &&& 0xF000#16 = 0xE000#16 →
    ∃ dr off, decode w = .lea dr off ∧ dr.num = field w 11 9 ∧ off.toNat = field w 8 0) ∧
  ∀ (dr : Reg) (off : BitVec 9) (s : State), ∃ t, exec (.lea dr off) s = .next t ∧
    IsSum (t.reg dr) s.pc off.toInt ∧ FlagsOf (t.reg dr) t.cond ∧ ResultFrame dr s t ∧
    ∀ m : Memory, exec (.lea dr off) { s with mem := m } = .next { t with mem := m }

/-- R124. -/
def Obligations.StStoresPcRelative : Prop :=
  (∀ w : Word, w &&& 0xF000#16 = 0x3000#16 →
    ∃ sr off, decode w = .st sr off ∧ sr.num = field w 11 9 ∧ off.toNat = field w 8 0) ∧
  ∀ (sr : Reg) (off : BitVec 9) (s : State), ∃ t, exec (.st sr off) s = .next t ∧
    IsSum (s.pcRelative9 off) s.pc off.toInt ∧ StoresOnly (s.pcRelative9 off) sr s t

/-- R125: the address is the pointer's old value, also when the pointer's own cell is stored to. -/
def Obligations.StiStoresThroughThePointer : Prop :=
  (∀ w : Word, w &&& 0xF000#16 = 0xB000#16 →
    ∃ sr off, decode w = .sti sr off ∧ sr.num = field w 11 9 ∧ off.toNat = field w 8 0) ∧
  ∀ (sr : Reg) (off : BitVec 9) (s : State), ∃ t, exec (.sti sr off) s = .next t ∧
    IsSum (s.pcRelative9 off) s.pc off.toInt ∧
    StoresOnly (s.memRead (s.pcRelative9 off)) sr s t

/-- R126. -/
def Obligations.StrStoresAtBasePlusOffset : Prop :=
  (∀ w : Word, w &&& 0xF000#16 = 0x7000#16 →
    ∃ sr base off, decode w = .str sr base off ∧ sr.num = field w 11 9 ∧
      base.num = field w 8 6 ∧ off.toNat = field w 5 0) ∧
  ∀ (sr base : Reg) (off : BitVec 6) (s : State), ∃ t, exec (.str sr base off) s = .next t ∧
    IsSum (s.baseOffset base off) (s.reg base) off.toInt ∧
    StoresOnly (s.baseOffset base off) sr s t

/-! ## System instructions and trap routines (spec/43_trap_system.md, spec/60_exceptions.md) -/

/-- R140: in a whole cycle only PC (and the fetched word) changes. -/
def Obligations.RtiIsANoOp : Prop :=
  (∀ w : Word, w &&& 0xF000#16 = 0x8000#16 → decode w = .rti) ∧
  (∀ s : State, exec .rti s = .next s) ∧
  ∀ s : State, s.Fetching → s.running = true → s.current = .rti →
    step s = .next { s with pc := s.pc + 1, ir := s.memRead s.pc }

/-- R141: all 4096 words of the opcode. -/
def Obligations.ResIsANoOp : Prop :=
  (∀ w : Word, w &&& 0xF000#16 = 0xD000#16 → decode w = .res) ∧
  (∀ s : State, exec .res s = .next s) ∧
  ∀ s : State, s.Fetching → s.running = true → s.current = .res →
    step s = .next { s with pc := s.pc + 1, ir := s.memRead s.pc }

/-- R142's encoding, and R150, which the spec derives from R142 to R148: for every vector R7, PC, COND,
memory and R1 to R6; who may write R0, read the input or read memory. That a blocked read sets
`inputWait` and a scan without end sets `openScan` is the model's form (logs 8 and 11). -/
def Obligations.TrapLinksAndKeepsPcCondAndMemory : Prop :=
  (∀ w : Word, w &&& 0xF000#16 = 0xF000#16 →
    ∃ v, decode w = .trap v ∧ v.toNat = field w 7 0) ∧
  ∀ (v : Byte) (s : State), ∃ t, exec (.trap v) s = .next t ∧ TrapFrame [.r0] s t ∧
    (v ≠ 0x20#8 → v ≠ 0x23#8 → t.reg .r0 = s.reg .r0 ∧ t.inputWait = s.inputWait ∧
      t.consoleIn = s.consoleIn) ∧
    (v ≠ 0x22#8 → v ≠ 0x24#8 → t.openScan = s.openScan ∧
      ∀ m : Memory, exec (.trap v) { s with mem := m } = .next { t with mem := m })

/-- R143, with a character available. That a character has 8 bits is the spec's decision D9; that
nothing is flushed is said in the form of log 10. -/
def Obligations.GetcReadsOneCharacterWithoutEcho : Prop :=
  decode 0xF020#16 = Instr.getc ∧
  ∀ (s : State) (c : Byte) (rest : List Byte), s.consoleIn = c :: rest →
    ∃ t, exec Instr.getc s = .next t ∧ (t.reg .r0).toNat = c.toNat ∧ t.consoleIn = rest ∧
      t.consoleOut = s.consoleOut ∧ t.consoleFlushed = s.consoleFlushed ∧ t.inputWait = none ∧
      TrapFrame [.r0] s t ∧ t.running = s.running ∧ t.faultStatus = s.faultStatus ∧
      t.openScan = s.openScan

/-- R146, with a character available, for every prompt. The width of a character and the flush points
are the spec's decisions D9 and D13. -/
def Obligations.InPromptsAndReadsWithEcho : Prop :=
  decode 0xF023#16 = Instr.inChar ∧
  ∀ (s : State) (c : Byte) (rest : List Byte), s.consoleIn = c :: rest →
    ∃ t, exec Instr.inChar s = .next t ∧ (t.reg .r0).toNat = c.toNat ∧ t.consoleIn = rest ∧
      t.consoleOut = s.consoleOut ++ Config.inPrompt ++ [c] ∧ AllFlushed t ∧
      t.inputWait = none ∧ TrapFrame [.r0] s t ∧ t.running = s.running ∧
      t.faultStatus = s.faultStatus ∧ t.openScan = s.openScan

/-- R143 and R146 with no character: blocked, with R7 written and R0 not, the prompt written and
visible. Blocking without end is the spec's decision D10; that the wait names its read is the model's
form (log 8). -/
def Obligations.ReadWithoutInputBlocks : Prop :=
  (∀ s : State, s.consoleIn = [] → ∃ t, exec Instr.getc s = .next t ∧
    t.inputWait = some .noEcho ∧ TrapFrame [] s t ∧ SameConsole s t ∧ t.running = s.running ∧
    t.faultStatus = s.faultStatus ∧ t.openScan = s.openScan) ∧
  ∀ s : State, s.consoleIn = [] → ∃ t, exec Instr.inChar s = .next t ∧
    t.inputWait = some .echo ∧ TrapFrame [] s t ∧ t.consoleIn = [] ∧
    t.consoleOut = s.consoleOut ++ Config.inPrompt ∧ AllFlushed t ∧ t.running = s.running ∧
    t.faultStatus = s.faultStatus ∧ t.openScan = s.openScan

/-- R144. The flush is R180's, in the model's form, a count of visible characters (log 10). -/
def Obligations.OutWritesTheLowByte : Prop :=
  decode 0xF021#16 = Instr.out ∧
  ∀ s : State, ∃ t, exec Instr.out s = .next t ∧
    (∃ c : Byte, c.toNat = (s.reg .r0).toNat % 256 ∧ t.consoleOut = s.consoleOut ++ [c]) ∧
    AllFlushed t ∧ t.consoleIn = s.consoleIn ∧ TrapFrame [] s t ∧ SameControl s t

/-- R145 and its corner cases: the string up to the first zero cell, the empty string, the wrap, and
the scan that never ends, which is the spec's decision D14, one cell a step, which is the model's
form (log 11). -/
def Obligations.PutsWritesUpToTheZeroCell : Prop :=
  decode 0xF022#16 = Instr.puts ∧
  (∀ (s : State) (n : Nat), (∀ k, k < n → cellFrom s (s.reg .r0) k ≠ 0x0000#16) →
    cellFrom s (s.reg .r0) n = 0x0000#16 →
    ∃ t, exec Instr.puts s = .next t ∧
      t.consoleOut = s.consoleOut ++
        (List.range n).map (fun k => lo8 (cellFrom s (s.reg .r0) k)) ∧
      AllFlushed t ∧ t.consoleIn = s.consoleIn ∧ TrapFrame [] s t ∧ SameControl s t) ∧
  ∀ s : State, s.lifecycle = .running → s.inputWait = none →
    (∀ a, s.memRead a ≠ 0x0000#16) →
    ∃ t, exec Instr.puts s = .next t ∧ TrapFrame [] s t ∧ EntersScanFrame s t ∧
      ScansForever (fun w => [lo8 w]) s t

/-- R147 and its corner cases, as for PUTS (the spec's decision D14; log 11): it ends at the first zero
byte, at the low byte or mid-cell. -/
def Obligations.PutspWritesUpToTheZeroByte : Prop :=
  decode 0xF024#16 = Instr.putsp ∧
  (∀ (s : State) (n : Nat),
    (∀ k, k < n → lo8 (cellFrom s (s.reg .r0) k) ≠ 0x00#8 ∧
      hi8 (cellFrom s (s.reg .r0) k) ≠ 0x00#8) →
    (lo8 (cellFrom s (s.reg .r0) n) = 0x00#8 ∨ hi8 (cellFrom s (s.reg .r0) n) = 0x00#8) →
    ∃ t, exec Instr.putsp s = .next t ∧
      t.consoleOut = s.consoleOut ++
        ((List.range n).flatMap fun k =>
          [lo8 (cellFrom s (s.reg .r0) k), hi8 (cellFrom s (s.reg .r0) k)]) ++
        (if lo8 (cellFrom s (s.reg .r0) n) = 0x00#8 then []
          else [lo8 (cellFrom s (s.reg .r0) n)]) ∧
      AllFlushed t ∧ t.consoleIn = s.consoleIn ∧ TrapFrame [] s t ∧ SameControl s t) ∧
  ∀ s : State, s.lifecycle = .running → s.inputWait = none →
    (∀ a, lo8 (s.memRead a) ≠ 0x00#8 ∧ hi8 (s.memRead a) ≠ 0x00#8) →
    ∃ t, exec Instr.putsp s = .next t ∧ TrapFrame [] s t ∧ EntersScanFrame s t ∧
      ScansForever (fun w => [lo8 w, hi8 w]) s t

/-- R148, for every notice. That the flush is a count of visible characters, and that a step of a halted
machine answers the same state, are the model's forms (logs 10 and 6). -/
def Obligations.HaltWritesTheNoticeAndEndsTheRun : Prop :=
  decode 0xF025#16 = Instr.halt ∧
  (∀ s : State, ∃ t, exec Instr.halt s = .next t ∧ t.running = false ∧
    t.consoleOut = s.consoleOut ++ Config.haltNotice ∧ AllFlushed t ∧
    t.consoleIn = s.consoleIn ∧ TrapFrame [] s t ∧ t.faultStatus = s.faultStatus ∧
    t.inputWait = s.inputWait ∧ t.openScan = s.openScan) ∧
  EndsTheRun Instr.halt

/-- R171, the spec's decision D7 (log 15): its effects, that it is precise, and that the run stops, with
R82's test and R207's end. That a step of a halted machine answers the same state is the model's form
(log 6). -/
def Obligations.UndefinedVectorRecordsThePreciseFault : Prop :=
  ∀ v : Byte, (v.toNat < 0x20 ∨ 0x25 < v.toNat) →
    (∀ s : State, exec (.trap v) s = .next
      { s with
        regs := (s.setReg .r7 s.pc).regs
        faultStatus := some (.undefinedTrapVector v (s.pc - 1))
        running := false }) ∧
    EndsTheRun (.trap v) ∧
    ∀ s t : State, s.Fetching → s.current = .trap v → step s = .next t →
      t.faultStatus = some (.undefinedTrapVector v s.pc) ∧ t.faultCode = 1 ∧ SameConsole s t ∧
      SameMemory s t ∧ t.cond = s.cond ∧ SameRegsExcept [.r7] s t

/-! ## Encoding (spec/30_encoding.md) -/

/-- One word of each of R63's eleven formats, both of NONE's opcodes among them, written out from its
encoding string, decodes to its instruction. -/
def Obligations.SpecWordsDecode : Prop :=
  decode 0b0001_010_001_0_00_001#16 = .addReg .r2 .r1 .r1 ∧
  decode 0b0001_010_001_1_00101#16 = .addImm .r2 .r1 5#5 ∧
  decode 0b1001_100_101_111111#16 = .notReg .r4 .r5 ∧
  decode 0b0000_010_000000101#16 = .br 0b010#3 5#9 ∧
  decode 0b1100_000_010_000000#16 = .jmp .r2 ∧
  decode 0b0100_1_00000000101#16 = .jsr 5#11 ∧
  decode 0b0100_0_00_011_000000#16 = .jsrr .r3 ∧
  decode 0b0110_100_011_111111#16 = .ldr .r4 .r3 0b111111#6 ∧
  decode 0b1011_010_000001000#16 = .sti .r2 8#9 ∧
  decode 0b1111_0001_00100101#16 = .trap 0x25#8 ∧
  decode 0b1000_000000000000#16 = .rti ∧
  decode 0b1101_000100100011#16 = .res

/-- R61 and R62: bits 15..12 alone select the handler. Fourteen of the values are the spec's decision
D2 (log 2). -/
def Obligations.OpcodeFieldSelectsTheHandler : Prop :=
  ∀ w : Word, opcodeNumber (decode w) = field w 15 12

/-- R68, the spec's decision D3 (log 3): words of one format that differ only in ignored bits are one
instruction. -/
def Obligations.IgnoredBitsDoNotMatter : Prop :=
  ∀ w v : Word,
    (w &&& 0xF020#16 = 0x1000#16 → w &&& 0xFFE7#16 = v &&& 0xFFE7#16 → decode w = decode v) ∧
    (w &&& 0xF020#16 = 0x5000#16 → w &&& 0xFFE7#16 = v &&& 0xFFE7#16 → decode w = decode v) ∧
    (w &&& 0xF000#16 = 0x9000#16 → w &&& 0xFFC0#16 = v &&& 0xFFC0#16 → decode w = decode v) ∧
    (w &&& 0xF000#16 = 0xC000#16 → w &&& 0xF1C0#16 = v &&& 0xF1C0#16 → decode w = decode v) ∧
    (w &&& 0xF800#16 = 0x4000#16 → w &&& 0xF9C0#16 = v &&& 0xF9C0#16 → decode w = decode v) ∧
    (w &&& 0xF000#16 = 0xF000#16 → w &&& 0xF0FF#16 = v &&& 0xF0FF#16 → decode w = decode v) ∧
    (w &&& 0xF000#16 = 0x8000#16 → w &&& 0xF000#16 = v &&& 0xF000#16 → decode w = decode v) ∧
    (w &&& 0xF000#16 = 0xD000#16 → w &&& 0xF000#16 = v &&& 0xF000#16 → decode w = decode v)

/-- Decoding an encoded instruction gives it back, for every instruction and every operand. -/
def Obligations.DecodeOfEncodeIsTheInstruction : Prop :=
  ∀ i : Instr, i.wellFormed = true → decode (encode i) = i

/-- The other direction: a word whose ignored bits are canonical is what its instruction encodes to.
RES has no canonical form (R63), and its word is the model's choice (log 4). -/
def Obligations.EncodeOfDecodeIsTheCanonicalWord : Prop :=
  ∀ w : Word, canonicalWord w = true → field w 15 12 ≠ 13 → encode (decode w) = w

/-! ## Primitives -/

/-- R9: the value is kept, and the formula of the rule. -/
def Obligations.SignExtensionKeepsTheValue : Prop :=
  ∀ (n : Nat) (v : BitVec n), 1 ≤ n → n ≤ 16 →
    (sext v).toInt = v.toInt ∧
    (v.getLsbD (n - 1) = false → (sext v).toNat = v.toNat) ∧
    (v.getLsbD (n - 1) = true → (sext v).toNat = (v.toNat + 0xFFFF * 2 ^ n) % 65536)

/-- The byte halves and zero extension of R8. -/
def Obligations.ByteHalvesOfAWord : Prop :=
  (∀ w : Word, (lo8 w).toNat = w.toNat % 256 ∧ (hi8 w).toNat = w.toNat / 256) ∧
  ∀ c : Byte, (zext8 c).toNat = c.toNat

/-- R25: `setcc` looks at the register's current value, sets exactly one flag, and changes nothing
else. -/
def Obligations.SetccSetsExactlyOneFlag : Prop :=
  ∀ (s : State) (r : Reg), FlagsOf (s.reg r) (s.setcc r).cond ∧
    ((s.setcc r).cond = 0b100#3 ∨ (s.setcc r).cond = 0b010#3 ∨ (s.setcc r).cond = 0b001#3) ∧
    { s.setcc r with cond := s.cond } = s

/-! ## The engine -/

/-- R80 and R82's test: a cycle is the handler of the decoded word on the state after the fetch (log 5),
then the test of the running flag, in the same step (log 20). That an endless scan is no cycle is the
model's form (log 11). -/
def Obligations.StepRunsTheDecodedInstruction : Prop :=
  ∀ (s : State) (i : Instr), s.Fetching → decode (s.memRead s.pc) = i →
    ∃ t, exec i { s with ir := s.memRead s.pc, pc := s.pc + 1 } = .next t ∧
      (t.running = true → step s = .next t) ∧
      (t.running = false → step s = .next { t with lifecycle := .halted })

/-- From every state a step answers a next state: no encoding, address or operand stops the machine
with anything but a state (R170; logs 6, 8 and 15). -/
def Obligations.EveryStepAnswersAState : Prop :=
  ∀ s : State, ∃ t, step s = .next t

/-- R28, R207, the spec's decision D17: nothing is fetched in Halted, and no operation of the host
leaves it. A step that leaves the state as it is, and `none`, are the model's forms (logs 6 and 19). -/
def Obligations.HaltedIsTerminal : Prop :=
  ∀ s : State, s.lifecycle = .halted →
    (∀ n, Host.Core.run Sys2Proof.core n s = .next s) ∧ s.hostStart = s ∧
    (∀ a v, s.hostWriteCell a v = none) ∧ (∀ a, s.hostSetPc a = none) ∧
    ∀ i, s.hostLoad i = none

/-- R204, the spec's decision D17: start is allowed only in Idle. That it has no effect in Running too
is the model's reading (log 19). -/
def Obligations.StartRunsAnIdleMachine : Prop :=
  ∀ s : State,
    (s.lifecycle = .idle → s.hostStart = { s with running := true, lifecycle := .running }) ∧
    (s.lifecycle ≠ .idle → s.hostStart = s)

/-- R31, R181: while the wait is set and no character comes, nothing changes; the next character ends
the wait, in order, once (the spec's decision D10; the forms are those of logs 8 and 10). -/
def Obligations.InputWaitEndsWithTheNextCharacter : Prop :=
  ∀ (s : State) (k : ConsoleRead), s.lifecycle = .running → s.inputWait = some k →
    s.consoleIn = [] →
    (∀ n, Host.Core.run Sys2Proof.core n s = .next s) ∧
    ∀ (c : Byte) (more : List Byte),
      ∃ t, step (s.consoleSupply (c :: more)) = .next t ∧ t.inputWait = none ∧
        (t.reg .r0).toNat = c.toNat ∧ SameRegsExcept [.r0] s t ∧ t.consoleIn = more ∧
        t.consoleOut = s.consoleOut ++ (match k with | .noEcho => [] | .echo => [c]) ∧
        (k = .noEcho → t.consoleFlushed = s.consoleFlushed) ∧ (k = .echo → AllFlushed t) ∧
        t.pc = s.pc ∧ t.cond = s.cond ∧ SameMemory s t ∧
        SameEngine s t ∧ t.running = s.running ∧ t.openScan = s.openScan

/-- A scan of 65536 cells finds no end exactly when memory holds none: it never ends (the spec's
decision D14; log 11). -/
def Obligations.ScanFailsExactlyWithoutATerminator : Prop :=
  ∀ (r : ScanRoutine) (m : Memory) (a : Word),
    scanBytes r m scanLimit a = none ↔ ∀ b : Word, (scanCell r (m.read b)).2 = false

/-- R54, the spec's decision D20: what a store puts in the next instruction's cell is what the next
cycle runs. -/
def Obligations.StoreIsSeenByTheNextFetch : Prop :=
  ∀ (s : State) (sr : Reg), s.Fetching → s.running = true → s.current = .st sr 0#9 →
    ∃ t, step s = .next t ∧ t.Fetching ∧ t.current = decode (s.reg sr) ∧
      ∃ u, step t = .next u ∧ u.ir = s.reg sr

/-! ## Whole-machine rules -/

/-- R21, which the spec derives: the only writers of a general register, over a whole step from any
state. A wait's step is the model's form (log 8). -/
def Obligations.RegistersHaveOnlyTheListedWriters : Prop :=
  ∀ (s t : State) (r : Reg), step s = .next t → t.reg r ≠ s.reg r →
    (s.Fetching ∧
      (resultReg s.current = some r ∨ (writesLink s.current = true ∧ r = .r7) ∨
        ((s.current = Instr.getc ∨ s.current = Instr.inChar) ∧ r = .r0))) ∨
    (s.inputWait ≠ none ∧ r = .r0)

/-- R24, R26: only the seven flag-setting instructions write COND, and always from their result; and
only BR reads it. -/
def Obligations.CondHasOnlyTheListedWritersAndReader : Prop :=
  (∀ s t : State, step s = .next t → t.cond ≠ s.cond →
    s.Fetching ∧ resultReg s.current ≠ none) ∧
  (∀ (s t : State) (dr : Reg), s.Fetching → resultReg s.current = some dr → step s = .next t →
    FlagsOf (t.reg dr) t.cond) ∧
  ∀ (i : Instr) (s t : State) (c : BitVec 3), (∀ nzp off, i ≠ .br nzp off) →
    exec i s = .next t →
    ∃ u, exec i { s with cond := c } = .next u ∧ { u with cond := t.cond } = t

/-- R41, and R45, which the spec derives: in a step only ST, STI and STR change memory, at the address
they compute, to the value of the register they name. -/
def Obligations.MemoryHasOnlyTheStoresAsWriters : Prop :=
  ∀ (s t : State) (a : Word), step s = .next t → t.memRead a ≠ s.memRead a →
    s.Fetching ∧ ∃ sr, storeOf s.current s.fetch = some (a, sr) ∧ t.memRead a = s.reg sr

/-- R27 and R205: the running flag is cleared, and the run ended, by HALT and by an undefined vector,
and by nothing else (the spec's decisions D7 and D17). `Inv` is the model's. -/
def Obligations.RunEndsInExactlyTwoWays : Prop :=
  ∀ s t : State, s.Inv → s.lifecycle = .running → step s = .next t →
    ((t.running = false ↔ s.Fetching ∧ (s.current = Instr.halt ∨
      ∃ v, trapVectorDefined v = false ∧ s.current = .trap v)) ∧
    (t.lifecycle = .halted ↔ t.running = false) ∧
    (s.Fetching → s.current = Instr.halt → t.faultStatus = none) ∧
    ∀ v, s.Fetching → trapVectorDefined v = false → s.current = .trap v →
      t.faultStatus = some (.undefinedTrapVector v s.pc))

/-- R30, R172, the spec's decisions D7 and D8: a fault record is written only by an undefined vector,
and never cleared. `Inv` is the model's. -/
def Obligations.FaultRecordIsWrittenOnceAndKept : Prop :=
  ∀ s t : State, s.Inv → step s = .next t →
    (s.faultStatus ≠ none → t.faultStatus = s.faultStatus) ∧
    (t.faultStatus ≠ s.faultStatus → s.Fetching ∧ ∃ v, trapVectorDefined v = false ∧
      s.current = .trap v ∧ t.faultStatus = some (.undefinedTrapVector v s.pc))

/-- R182, R181: in a step the output is only appended to, and at most one character is consumed, the
oldest (the spec's decisions D10 and D13; the streams are held as log 9 says). -/
def Obligations.ConsoleIsAppendedToAndConsumedInOrder : Prop :=
  ∀ s t : State, step s = .next t →
    (∃ bs, t.consoleOut = s.consoleOut ++ bs) ∧
    (t.consoleIn = s.consoleIn ∨ ∃ c, s.consoleIn = c :: t.consoleIn)

/-- R29: the instruction word is constant while its instruction executes, blocked or scanning
included, and no instruction reads it. What it holds after a step, and in Idle and Halted, the spec
gives no meaning: that it keeps its word is the model's form (log 12). -/
def Obligations.InstructionWordIsConstantAndUnread : Prop :=
  (∀ (i : Instr) (s t : State) (w : Word), exec i s = .next t →
    t.ir = s.ir ∧ exec i { s with ir := w } = .next { t with ir := w }) ∧
  ∀ s t : State, step s = .next t →
    (s.Fetching → t.ir = s.memRead s.pc) ∧ (¬ s.Fetching → t.ir = s.ir)

/-! ## Reset, boot, and the invariant -/

/-- R200: every value the spec gives for construction. COND's and the lifecycle's are its decisions D5
and D17. -/
def Obligations.ResetIsTheConstructedState : Prop :=
  (∀ r, State.reset.reg r = 0x0000#16) ∧ State.reset.pc = 0x0000#16 ∧
  State.reset.cond = 0b000#3 ∧ State.reset.running = false ∧ State.reset.lifecycle = .idle ∧
  State.reset.faultStatus = none ∧ State.reset.faultCode = 0 ∧ State.reset.inputWait = none ∧
  ∀ a, State.reset.memRead a = 0x0000#16

/-- R203, R204: a boot ends Running at `start_pc`, each cell holding the last word an image puts there
and 0x0000 where none does, everything else as constructed, the model's invariant holding (the spec's
decisions D16 and D22; logs 7 and 14). That a boot with no image starts too is the model's choice
(log 22). -/
def Obligations.BootStartsTheLoadedProgram : Prop :=
  ∀ (images : List Image) (startPc : Word), ∃ s, boot images startPc = some s ∧ s.Inv ∧
    s.Fetching ∧ s.running = true ∧ s.pc = startPc ∧ (∀ r, s.reg r = 0x0000#16) ∧
    s.cond = 0b000#3 ∧ s.faultStatus = none ∧
    (∀ a w, LastLoaded images a w → s.memRead a = w) ∧
    (∀ a, (∀ i ∈ images, ¬ Covers i a) → s.memRead a = 0x0000#16) ∧
    { s with mem := [], pc := 0x0000#16, running := false, lifecycle := .idle } = State.reset

/-- The model's invariant holds at reset. -/
def Obligations.ResetHasTheInvariant : Prop := State.reset.Inv

/-- Every step keeps the model's invariant, and so does the console's supplying characters. -/
def Obligations.StepKeepsTheInvariant : Prop :=
  (∀ s t : State, s.Inv → step s = .next t → t.Inv) ∧
  ∀ (s : State) (bs : List Byte), s.Inv → (s.consoleSupply bs).Inv
end

