-- ==== Sys2Proof/Laws/Encoding.lean ====
section
/-! SUPPORT. The bits of encoded words, and register fields (spec/30_encoding.md R63, R64). -/

namespace Sys2Proof

@[simp] theorem Reg.ofField_field (r : Reg) : Reg.ofField r.field = r := by cases r <;> rfl

@[simp] theorem Reg.field_ofField (b : BitVec 3) : (Reg.ofField b).field = b := by
  revert b
  decide

/-- A register field's number is its register's (R64). -/
@[simp] theorem Reg.field_toNat (r : Reg) : r.field.toNat = r.num := by cases r <;> rfl

/-- The bits of a placed field. -/
@[simp] theorem getLsbD_place {n : Nat} (lo j : Nat) (v : BitVec n) :
    (place lo v).getLsbD j = (decide (j < 16) && decide (lo ≤ j) && v.getLsbD (j - lo)) := by
  by_cases h : j < lo
  · have h' : ¬ lo ≤ j := by omega
    simp [place, h, h']
  · have h1 : lo ≤ j := by omega
    by_cases h2 : j < 16
    · simp [place, h, h1, h2]
    · simp [place, h2]

/-- The bits of a placed field, by a bound index. -/
@[simp] theorem getElem_place {n : Nat} (lo j : Nat) (v : BitVec n) (h : j < 16) :
    (place lo v)[j] = (decide (lo ≤ j) && v.getLsbD (j - lo)) := by
  simp [← BitVec.getLsbD_eq_getElem, h]

end Sys2Proof
end

