-- ==== Sys2Proof/Laws/State.lean ====
section
/-! SUPPORT. One lemma per field per update of the state, and registers over every update. -/

namespace Sys2Proof.Machine

variable (s : State)

/-! ### setReg -/
@[simp] theorem State.setReg_regs (r : Reg) (v : Word) : (s.setReg r v).regs = s.regs.set r v := rfl
@[simp] theorem State.setReg_pc (r : Reg) (v : Word) : (s.setReg r v).pc = s.pc := rfl
@[simp] theorem State.setReg_cond (r : Reg) (v : Word) : (s.setReg r v).cond = s.cond := rfl
@[simp] theorem State.setReg_running (r : Reg) (v : Word) :
    (s.setReg r v).running = s.running := rfl
@[simp] theorem State.setReg_lifecycle (r : Reg) (v : Word) :
    (s.setReg r v).lifecycle = s.lifecycle := rfl
@[simp] theorem State.setReg_faultStatus (r : Reg) (v : Word) :
    (s.setReg r v).faultStatus = s.faultStatus := rfl
@[simp] theorem State.setReg_inputWait (r : Reg) (v : Word) :
    (s.setReg r v).inputWait = s.inputWait := rfl
@[simp] theorem State.setReg_openScan (r : Reg) (v : Word) :
    (s.setReg r v).openScan = s.openScan := rfl
@[simp] theorem State.setReg_ir (r : Reg) (v : Word) : (s.setReg r v).ir = s.ir := rfl
@[simp] theorem State.setReg_mem (r : Reg) (v : Word) : (s.setReg r v).mem = s.mem := rfl
@[simp] theorem State.setReg_consoleIn (r : Reg) (v : Word) :
    (s.setReg r v).consoleIn = s.consoleIn := rfl
@[simp] theorem State.setReg_consoleOut (r : Reg) (v : Word) :
    (s.setReg r v).consoleOut = s.consoleOut := rfl
@[simp] theorem State.setReg_consoleFlushed (r : Reg) (v : Word) :
    (s.setReg r v).consoleFlushed = s.consoleFlushed := rfl
@[simp] theorem State.memRead_setReg (x : Word) (r : Reg) (v : Word) :
    (s.setReg r v).memRead x = s.memRead x := rfl

/-! ### setPc -/
@[simp] theorem State.setPc_regs (v : Word) : (s.setPc v).regs = s.regs := rfl
@[simp] theorem State.setPc_pc (v : Word) : (s.setPc v).pc = v := rfl
@[simp] theorem State.setPc_cond (v : Word) : (s.setPc v).cond = s.cond := rfl
@[simp] theorem State.setPc_running (v : Word) : (s.setPc v).running = s.running := rfl
@[simp] theorem State.setPc_lifecycle (v : Word) : (s.setPc v).lifecycle = s.lifecycle := rfl
@[simp] theorem State.setPc_faultStatus (v : Word) : (s.setPc v).faultStatus = s.faultStatus := rfl
@[simp] theorem State.setPc_inputWait (v : Word) : (s.setPc v).inputWait = s.inputWait := rfl
@[simp] theorem State.setPc_openScan (v : Word) : (s.setPc v).openScan = s.openScan := rfl
@[simp] theorem State.setPc_ir (v : Word) : (s.setPc v).ir = s.ir := rfl
@[simp] theorem State.setPc_mem (v : Word) : (s.setPc v).mem = s.mem := rfl
@[simp] theorem State.setPc_consoleIn (v : Word) : (s.setPc v).consoleIn = s.consoleIn := rfl
@[simp] theorem State.setPc_consoleOut (v : Word) : (s.setPc v).consoleOut = s.consoleOut := rfl
@[simp] theorem State.setPc_consoleFlushed (v : Word) :
    (s.setPc v).consoleFlushed = s.consoleFlushed := rfl
@[simp] theorem State.reg_setPc (i : Reg) (v : Word) : (s.setPc v).reg i = s.reg i := rfl
@[simp] theorem State.memRead_setPc (x : Word) (v : Word) :
    (s.setPc v).memRead x = s.memRead x := rfl

/-! ### setCond -/
@[simp] theorem State.setCond_regs (c : BitVec 3) : (s.setCond c).regs = s.regs := rfl
@[simp] theorem State.setCond_pc (c : BitVec 3) : (s.setCond c).pc = s.pc := rfl
@[simp] theorem State.setCond_cond (c : BitVec 3) : (s.setCond c).cond = c := rfl
@[simp] theorem State.setCond_running (c : BitVec 3) : (s.setCond c).running = s.running := rfl
@[simp] theorem State.setCond_lifecycle (c : BitVec 3) :
    (s.setCond c).lifecycle = s.lifecycle := rfl
@[simp] theorem State.setCond_faultStatus (c : BitVec 3) :
    (s.setCond c).faultStatus = s.faultStatus := rfl
@[simp] theorem State.setCond_inputWait (c : BitVec 3) :
    (s.setCond c).inputWait = s.inputWait := rfl
@[simp] theorem State.setCond_openScan (c : BitVec 3) : (s.setCond c).openScan = s.openScan := rfl
@[simp] theorem State.setCond_ir (c : BitVec 3) : (s.setCond c).ir = s.ir := rfl
@[simp] theorem State.setCond_mem (c : BitVec 3) : (s.setCond c).mem = s.mem := rfl
@[simp] theorem State.setCond_consoleIn (c : BitVec 3) :
    (s.setCond c).consoleIn = s.consoleIn := rfl
@[simp] theorem State.setCond_consoleOut (c : BitVec 3) :
    (s.setCond c).consoleOut = s.consoleOut := rfl
@[simp] theorem State.setCond_consoleFlushed (c : BitVec 3) :
    (s.setCond c).consoleFlushed = s.consoleFlushed := rfl
@[simp] theorem State.reg_setCond (i : Reg) (c : BitVec 3) : (s.setCond c).reg i = s.reg i := rfl
@[simp] theorem State.memRead_setCond (x : Word) (c : BitVec 3) :
    (s.setCond c).memRead x = s.memRead x := rfl

/-! ### setIr -/
@[simp] theorem State.setIr_regs (w : Word) : (s.setIr w).regs = s.regs := rfl
@[simp] theorem State.setIr_pc (w : Word) : (s.setIr w).pc = s.pc := rfl
@[simp] theorem State.setIr_cond (w : Word) : (s.setIr w).cond = s.cond := rfl
@[simp] theorem State.setIr_running (w : Word) : (s.setIr w).running = s.running := rfl
@[simp] theorem State.setIr_lifecycle (w : Word) : (s.setIr w).lifecycle = s.lifecycle := rfl
@[simp] theorem State.setIr_faultStatus (w : Word) : (s.setIr w).faultStatus = s.faultStatus := rfl
@[simp] theorem State.setIr_inputWait (w : Word) : (s.setIr w).inputWait = s.inputWait := rfl
@[simp] theorem State.setIr_openScan (w : Word) : (s.setIr w).openScan = s.openScan := rfl
@[simp] theorem State.setIr_ir (w : Word) : (s.setIr w).ir = w := rfl
@[simp] theorem State.setIr_mem (w : Word) : (s.setIr w).mem = s.mem := rfl
@[simp] theorem State.setIr_consoleIn (w : Word) : (s.setIr w).consoleIn = s.consoleIn := rfl
@[simp] theorem State.setIr_consoleOut (w : Word) : (s.setIr w).consoleOut = s.consoleOut := rfl
@[simp] theorem State.setIr_consoleFlushed (w : Word) :
    (s.setIr w).consoleFlushed = s.consoleFlushed := rfl
@[simp] theorem State.reg_setIr (i : Reg) (w : Word) : (s.setIr w).reg i = s.reg i := rfl
@[simp] theorem State.memRead_setIr (x : Word) (w : Word) :
    (s.setIr w).memRead x = s.memRead x := rfl

/-! ### memWrite -/
@[simp] theorem State.memWrite_regs (a v : Word) : (s.memWrite a v).regs = s.regs := rfl
@[simp] theorem State.memWrite_pc (a v : Word) : (s.memWrite a v).pc = s.pc := rfl
@[simp] theorem State.memWrite_cond (a v : Word) : (s.memWrite a v).cond = s.cond := rfl
@[simp] theorem State.memWrite_running (a v : Word) : (s.memWrite a v).running = s.running := rfl
@[simp] theorem State.memWrite_lifecycle (a v : Word) :
    (s.memWrite a v).lifecycle = s.lifecycle := rfl
@[simp] theorem State.memWrite_faultStatus (a v : Word) :
    (s.memWrite a v).faultStatus = s.faultStatus := rfl
@[simp] theorem State.memWrite_inputWait (a v : Word) :
    (s.memWrite a v).inputWait = s.inputWait := rfl
@[simp] theorem State.memWrite_openScan (a v : Word) : (s.memWrite a v).openScan = s.openScan := rfl
@[simp] theorem State.memWrite_ir (a v : Word) : (s.memWrite a v).ir = s.ir := rfl
@[simp] theorem State.memWrite_mem (a v : Word) : (s.memWrite a v).mem = s.mem.write a v := rfl
@[simp] theorem State.memWrite_consoleIn (a v : Word) :
    (s.memWrite a v).consoleIn = s.consoleIn := rfl
@[simp] theorem State.memWrite_consoleOut (a v : Word) :
    (s.memWrite a v).consoleOut = s.consoleOut := rfl
@[simp] theorem State.memWrite_consoleFlushed (a v : Word) :
    (s.memWrite a v).consoleFlushed = s.consoleFlushed := rfl
@[simp] theorem State.reg_memWrite (i : Reg) (a v : Word) : (s.memWrite a v).reg i = s.reg i := rfl

/-! ### setRunning -/
@[simp] theorem State.setRunning_regs (b : Bool) : (s.setRunning b).regs = s.regs := rfl
@[simp] theorem State.setRunning_pc (b : Bool) : (s.setRunning b).pc = s.pc := rfl
@[simp] theorem State.setRunning_cond (b : Bool) : (s.setRunning b).cond = s.cond := rfl
@[simp] theorem State.setRunning_running (b : Bool) : (s.setRunning b).running = b := rfl
@[simp] theorem State.setRunning_lifecycle (b : Bool) :
    (s.setRunning b).lifecycle = s.lifecycle := rfl
@[simp] theorem State.setRunning_faultStatus (b : Bool) :
    (s.setRunning b).faultStatus = s.faultStatus := rfl
@[simp] theorem State.setRunning_inputWait (b : Bool) :
    (s.setRunning b).inputWait = s.inputWait := rfl
@[simp] theorem State.setRunning_openScan (b : Bool) : (s.setRunning b).openScan = s.openScan := rfl
@[simp] theorem State.setRunning_ir (b : Bool) : (s.setRunning b).ir = s.ir := rfl
@[simp] theorem State.setRunning_mem (b : Bool) : (s.setRunning b).mem = s.mem := rfl
@[simp] theorem State.setRunning_consoleIn (b : Bool) :
    (s.setRunning b).consoleIn = s.consoleIn := rfl
@[simp] theorem State.setRunning_consoleOut (b : Bool) :
    (s.setRunning b).consoleOut = s.consoleOut := rfl
@[simp] theorem State.setRunning_consoleFlushed (b : Bool) :
    (s.setRunning b).consoleFlushed = s.consoleFlushed := rfl
@[simp] theorem State.reg_setRunning (i : Reg) (b : Bool) : (s.setRunning b).reg i = s.reg i := rfl
@[simp] theorem State.memRead_setRunning (x : Word) (b : Bool) :
    (s.setRunning b).memRead x = s.memRead x := rfl

/-! ### setLifecycle -/
@[simp] theorem State.setLifecycle_regs (l : Lifecycle) : (s.setLifecycle l).regs = s.regs := rfl
@[simp] theorem State.setLifecycle_pc (l : Lifecycle) : (s.setLifecycle l).pc = s.pc := rfl
@[simp] theorem State.setLifecycle_cond (l : Lifecycle) : (s.setLifecycle l).cond = s.cond := rfl
@[simp] theorem State.setLifecycle_running (l : Lifecycle) :
    (s.setLifecycle l).running = s.running := rfl
@[simp] theorem State.setLifecycle_lifecycle (l : Lifecycle) :
    (s.setLifecycle l).lifecycle = l := rfl
@[simp] theorem State.setLifecycle_faultStatus (l : Lifecycle) :
    (s.setLifecycle l).faultStatus = s.faultStatus := rfl
@[simp] theorem State.setLifecycle_inputWait (l : Lifecycle) :
    (s.setLifecycle l).inputWait = s.inputWait := rfl
@[simp] theorem State.setLifecycle_openScan (l : Lifecycle) :
    (s.setLifecycle l).openScan = s.openScan := rfl
@[simp] theorem State.setLifecycle_ir (l : Lifecycle) : (s.setLifecycle l).ir = s.ir := rfl
@[simp] theorem State.setLifecycle_mem (l : Lifecycle) : (s.setLifecycle l).mem = s.mem := rfl
@[simp] theorem State.setLifecycle_consoleIn (l : Lifecycle) :
    (s.setLifecycle l).consoleIn = s.consoleIn := rfl
@[simp] theorem State.setLifecycle_consoleOut (l : Lifecycle) :
    (s.setLifecycle l).consoleOut = s.consoleOut := rfl
@[simp] theorem State.setLifecycle_consoleFlushed (l : Lifecycle) :
    (s.setLifecycle l).consoleFlushed = s.consoleFlushed := rfl
@[simp] theorem State.reg_setLifecycle (i : Reg) (l : Lifecycle) :
    (s.setLifecycle l).reg i = s.reg i := rfl
@[simp] theorem State.memRead_setLifecycle (x : Word) (l : Lifecycle) :
    (s.setLifecycle l).memRead x = s.memRead x := rfl

/-! ### setFaultStatus -/
@[simp] theorem State.setFaultStatus_regs (f : Option FaultRecord) :
    (s.setFaultStatus f).regs = s.regs := rfl
@[simp] theorem State.setFaultStatus_pc (f : Option FaultRecord) :
    (s.setFaultStatus f).pc = s.pc := rfl
@[simp] theorem State.setFaultStatus_cond (f : Option FaultRecord) :
    (s.setFaultStatus f).cond = s.cond := rfl
@[simp] theorem State.setFaultStatus_running (f : Option FaultRecord) :
    (s.setFaultStatus f).running = s.running := rfl
@[simp] theorem State.setFaultStatus_lifecycle (f : Option FaultRecord) :
    (s.setFaultStatus f).lifecycle = s.lifecycle := rfl
@[simp] theorem State.setFaultStatus_faultStatus (f : Option FaultRecord) :
    (s.setFaultStatus f).faultStatus = f := rfl
@[simp] theorem State.setFaultStatus_inputWait (f : Option FaultRecord) :
    (s.setFaultStatus f).inputWait = s.inputWait := rfl
@[simp] theorem State.setFaultStatus_openScan (f : Option FaultRecord) :
    (s.setFaultStatus f).openScan = s.openScan := rfl
@[simp] theorem State.setFaultStatus_ir (f : Option FaultRecord) :
    (s.setFaultStatus f).ir = s.ir := rfl
@[simp] theorem State.setFaultStatus_mem (f : Option FaultRecord) :
    (s.setFaultStatus f).mem = s.mem := rfl
@[simp] theorem State.setFaultStatus_consoleIn (f : Option FaultRecord) :
    (s.setFaultStatus f).consoleIn = s.consoleIn := rfl
@[simp] theorem State.setFaultStatus_consoleOut (f : Option FaultRecord) :
    (s.setFaultStatus f).consoleOut = s.consoleOut := rfl
@[simp] theorem State.setFaultStatus_consoleFlushed (f : Option FaultRecord) :
    (s.setFaultStatus f).consoleFlushed = s.consoleFlushed := rfl
@[simp] theorem State.reg_setFaultStatus (i : Reg) (f : Option FaultRecord) :
    (s.setFaultStatus f).reg i = s.reg i := rfl
@[simp] theorem State.memRead_setFaultStatus (x : Word) (f : Option FaultRecord) :
    (s.setFaultStatus f).memRead x = s.memRead x := rfl

/-! ### setInputWait -/
@[simp] theorem State.setInputWait_regs (w : Option ConsoleRead) :
    (s.setInputWait w).regs = s.regs := rfl
@[simp] theorem State.setInputWait_pc (w : Option ConsoleRead) : (s.setInputWait w).pc = s.pc := rfl
@[simp] theorem State.setInputWait_cond (w : Option ConsoleRead) :
    (s.setInputWait w).cond = s.cond := rfl
@[simp] theorem State.setInputWait_running (w : Option ConsoleRead) :
    (s.setInputWait w).running = s.running := rfl
@[simp] theorem State.setInputWait_lifecycle (w : Option ConsoleRead) :
    (s.setInputWait w).lifecycle = s.lifecycle := rfl
@[simp] theorem State.setInputWait_faultStatus (w : Option ConsoleRead) :
    (s.setInputWait w).faultStatus = s.faultStatus := rfl
@[simp] theorem State.setInputWait_inputWait (w : Option ConsoleRead) :
    (s.setInputWait w).inputWait = w := rfl
@[simp] theorem State.setInputWait_openScan (w : Option ConsoleRead) :
    (s.setInputWait w).openScan = s.openScan := rfl
@[simp] theorem State.setInputWait_ir (w : Option ConsoleRead) : (s.setInputWait w).ir = s.ir := rfl
@[simp] theorem State.setInputWait_mem (w : Option ConsoleRead) :
    (s.setInputWait w).mem = s.mem := rfl
@[simp] theorem State.setInputWait_consoleIn (w : Option ConsoleRead) :
    (s.setInputWait w).consoleIn = s.consoleIn := rfl
@[simp] theorem State.setInputWait_consoleOut (w : Option ConsoleRead) :
    (s.setInputWait w).consoleOut = s.consoleOut := rfl
@[simp] theorem State.setInputWait_consoleFlushed (w : Option ConsoleRead) :
    (s.setInputWait w).consoleFlushed = s.consoleFlushed := rfl
@[simp] theorem State.reg_setInputWait (i : Reg) (w : Option ConsoleRead) :
    (s.setInputWait w).reg i = s.reg i := rfl
@[simp] theorem State.memRead_setInputWait (x : Word) (w : Option ConsoleRead) :
    (s.setInputWait w).memRead x = s.memRead x := rfl

/-! ### setOpenScan -/
@[simp] theorem State.setOpenScan_regs (o : Option OpenScan) :
    (s.setOpenScan o).regs = s.regs := rfl
@[simp] theorem State.setOpenScan_pc (o : Option OpenScan) : (s.setOpenScan o).pc = s.pc := rfl
@[simp] theorem State.setOpenScan_cond (o : Option OpenScan) :
    (s.setOpenScan o).cond = s.cond := rfl
@[simp] theorem State.setOpenScan_running (o : Option OpenScan) :
    (s.setOpenScan o).running = s.running := rfl
@[simp] theorem State.setOpenScan_lifecycle (o : Option OpenScan) :
    (s.setOpenScan o).lifecycle = s.lifecycle := rfl
@[simp] theorem State.setOpenScan_faultStatus (o : Option OpenScan) :
    (s.setOpenScan o).faultStatus = s.faultStatus := rfl
@[simp] theorem State.setOpenScan_inputWait (o : Option OpenScan) :
    (s.setOpenScan o).inputWait = s.inputWait := rfl
@[simp] theorem State.setOpenScan_openScan (o : Option OpenScan) :
    (s.setOpenScan o).openScan = o := rfl
@[simp] theorem State.setOpenScan_ir (o : Option OpenScan) : (s.setOpenScan o).ir = s.ir := rfl
@[simp] theorem State.setOpenScan_mem (o : Option OpenScan) : (s.setOpenScan o).mem = s.mem := rfl
@[simp] theorem State.setOpenScan_consoleIn (o : Option OpenScan) :
    (s.setOpenScan o).consoleIn = s.consoleIn := rfl
@[simp] theorem State.setOpenScan_consoleOut (o : Option OpenScan) :
    (s.setOpenScan o).consoleOut = s.consoleOut := rfl
@[simp] theorem State.setOpenScan_consoleFlushed (o : Option OpenScan) :
    (s.setOpenScan o).consoleFlushed = s.consoleFlushed := rfl
@[simp] theorem State.reg_setOpenScan (i : Reg) (o : Option OpenScan) :
    (s.setOpenScan o).reg i = s.reg i := rfl
@[simp] theorem State.memRead_setOpenScan (x : Word) (o : Option OpenScan) :
    (s.setOpenScan o).memRead x = s.memRead x := rfl

/-! ### setConsoleIn -/
@[simp] theorem State.setConsoleIn_regs (bs : List Byte) : (s.setConsoleIn bs).regs = s.regs := rfl
@[simp] theorem State.setConsoleIn_pc (bs : List Byte) : (s.setConsoleIn bs).pc = s.pc := rfl
@[simp] theorem State.setConsoleIn_cond (bs : List Byte) : (s.setConsoleIn bs).cond = s.cond := rfl
@[simp] theorem State.setConsoleIn_running (bs : List Byte) :
    (s.setConsoleIn bs).running = s.running := rfl
@[simp] theorem State.setConsoleIn_lifecycle (bs : List Byte) :
    (s.setConsoleIn bs).lifecycle = s.lifecycle := rfl
@[simp] theorem State.setConsoleIn_faultStatus (bs : List Byte) :
    (s.setConsoleIn bs).faultStatus = s.faultStatus := rfl
@[simp] theorem State.setConsoleIn_inputWait (bs : List Byte) :
    (s.setConsoleIn bs).inputWait = s.inputWait := rfl
@[simp] theorem State.setConsoleIn_openScan (bs : List Byte) :
    (s.setConsoleIn bs).openScan = s.openScan := rfl
@[simp] theorem State.setConsoleIn_ir (bs : List Byte) : (s.setConsoleIn bs).ir = s.ir := rfl
@[simp] theorem State.setConsoleIn_mem (bs : List Byte) : (s.setConsoleIn bs).mem = s.mem := rfl
@[simp] theorem State.setConsoleIn_consoleIn (bs : List Byte) :
    (s.setConsoleIn bs).consoleIn = bs := rfl
@[simp] theorem State.setConsoleIn_consoleOut (bs : List Byte) :
    (s.setConsoleIn bs).consoleOut = s.consoleOut := rfl
@[simp] theorem State.setConsoleIn_consoleFlushed (bs : List Byte) :
    (s.setConsoleIn bs).consoleFlushed = s.consoleFlushed := rfl
@[simp] theorem State.reg_setConsoleIn (i : Reg) (bs : List Byte) :
    (s.setConsoleIn bs).reg i = s.reg i := rfl
@[simp] theorem State.memRead_setConsoleIn (x : Word) (bs : List Byte) :
    (s.setConsoleIn bs).memRead x = s.memRead x := rfl

/-! ### consoleWriteAll -/
@[simp] theorem State.consoleWriteAll_regs (bs : List Byte) :
    (s.consoleWriteAll bs).regs = s.regs := rfl
@[simp] theorem State.consoleWriteAll_pc (bs : List Byte) : (s.consoleWriteAll bs).pc = s.pc := rfl
@[simp] theorem State.consoleWriteAll_cond (bs : List Byte) :
    (s.consoleWriteAll bs).cond = s.cond := rfl
@[simp] theorem State.consoleWriteAll_running (bs : List Byte) :
    (s.consoleWriteAll bs).running = s.running := rfl
@[simp] theorem State.consoleWriteAll_lifecycle (bs : List Byte) :
    (s.consoleWriteAll bs).lifecycle = s.lifecycle := rfl
@[simp] theorem State.consoleWriteAll_faultStatus (bs : List Byte) :
    (s.consoleWriteAll bs).faultStatus = s.faultStatus := rfl
@[simp] theorem State.consoleWriteAll_inputWait (bs : List Byte) :
    (s.consoleWriteAll bs).inputWait = s.inputWait := rfl
@[simp] theorem State.consoleWriteAll_openScan (bs : List Byte) :
    (s.consoleWriteAll bs).openScan = s.openScan := rfl
@[simp] theorem State.consoleWriteAll_ir (bs : List Byte) : (s.consoleWriteAll bs).ir = s.ir := rfl
@[simp] theorem State.consoleWriteAll_mem (bs : List Byte) :
    (s.consoleWriteAll bs).mem = s.mem := rfl
@[simp] theorem State.consoleWriteAll_consoleIn (bs : List Byte) :
    (s.consoleWriteAll bs).consoleIn = s.consoleIn := rfl
@[simp] theorem State.consoleWriteAll_consoleOut (bs : List Byte) :
    (s.consoleWriteAll bs).consoleOut = s.consoleOut ++ bs := rfl
@[simp] theorem State.consoleWriteAll_consoleFlushed (bs : List Byte) :
    (s.consoleWriteAll bs).consoleFlushed = s.consoleFlushed := rfl
@[simp] theorem State.reg_consoleWriteAll (i : Reg) (bs : List Byte) :
    (s.consoleWriteAll bs).reg i = s.reg i := rfl
@[simp] theorem State.memRead_consoleWriteAll (x : Word) (bs : List Byte) :
    (s.consoleWriteAll bs).memRead x = s.memRead x := rfl

/-! ### consoleFlush -/
@[simp] theorem State.consoleFlush_regs : (s.consoleFlush).regs = s.regs := rfl
@[simp] theorem State.consoleFlush_pc : (s.consoleFlush).pc = s.pc := rfl
@[simp] theorem State.consoleFlush_cond : (s.consoleFlush).cond = s.cond := rfl
@[simp] theorem State.consoleFlush_running : (s.consoleFlush).running = s.running := rfl
@[simp] theorem State.consoleFlush_lifecycle : (s.consoleFlush).lifecycle = s.lifecycle := rfl
@[simp] theorem State.consoleFlush_faultStatus : (s.consoleFlush).faultStatus = s.faultStatus := rfl
@[simp] theorem State.consoleFlush_inputWait : (s.consoleFlush).inputWait = s.inputWait := rfl
@[simp] theorem State.consoleFlush_openScan : (s.consoleFlush).openScan = s.openScan := rfl
@[simp] theorem State.consoleFlush_ir : (s.consoleFlush).ir = s.ir := rfl
@[simp] theorem State.consoleFlush_mem : (s.consoleFlush).mem = s.mem := rfl
@[simp] theorem State.consoleFlush_consoleIn : (s.consoleFlush).consoleIn = s.consoleIn := rfl
@[simp] theorem State.consoleFlush_consoleOut : (s.consoleFlush).consoleOut = s.consoleOut := rfl
@[simp] theorem State.consoleFlush_consoleFlushed :
    (s.consoleFlush).consoleFlushed = s.consoleOut.length := rfl
@[simp] theorem State.reg_consoleFlush (i : Reg) : (s.consoleFlush).reg i = s.reg i := rfl
@[simp] theorem State.memRead_consoleFlush (x : Word) :
    (s.consoleFlush).memRead x = s.memRead x := rfl

/-! ### The register file -/

theorem RegFile.get_set_same (f : RegFile) (r : Reg) (v : Word) : (f.set r v).get r = v := by
  cases r <;> rfl

theorem RegFile.get_set_other (f : RegFile) (r i : Reg) (v : Word) (h : i ≠ r) :
    (f.set r v).get i = f.get i := by
  cases r <;> cases i <;> first | rfl | exact absurd rfl h

/-- A register reads as the last value written to it. -/
@[simp] theorem State.reg_setReg_same (r : Reg) (v : Word) : (s.setReg r v).reg r = v :=
  RegFile.get_set_same s.regs r v

/-- A register write leaves every other register alone. -/
@[simp] theorem State.reg_setReg_other (r i : Reg) (v : Word) (h : i ≠ r) :
    (s.setReg r v).reg i = s.reg i :=
  RegFile.get_set_other s.regs r i v h

/-- A register write, seen from any register. -/
theorem State.reg_setReg (r i : Reg) (v : Word) :
    (s.setReg r v).reg i = if i = r then v else s.reg i := by
  by_cases h : i = r
  · subst h; simp
  · simp [h]

/-- Two states with equal registers have equal register files. -/
theorem RegFile.ext_get (f g : RegFile) (h : ∀ r, f.get r = g.get r) : f = g := by
  have h0 := h .r0; have h1 := h .r1; have h2 := h .r2; have h3 := h .r3
  have h4 := h .r4; have h5 := h .r5; have h6 := h .r6; have h7 := h .r7
  cases f; cases g
  simp_all [RegFile.get]

end Sys2Proof.Machine
end

