-- ==== Sys2Proof/Laws/Memory.lean ====
section
/-! SUPPORT. Memory: read after write, and the canonical form (spec/20_memory.md R41 to R43). -/

namespace Sys2Proof.Machine

namespace Memory

/-- A key that no listed cell has reads as unwritten. -/
theorem lookup_of_notMem (m : Memory) (k : Nat) (h : ∀ c ∈ m, c.1 ≠ k) :
    m.lookup k = Memory.unwritten := by
  induction m with
  | nil => rfl
  | cons c m ih =>
    obtain ⟨k', v⟩ := c
    have hk : k' ≠ k := h (k', v) (by simp)
    simp only [lookup, hk, if_false]
    exact ih fun d hd => h d (by simp [hd])

theorem fst_ne_of_mem_erase (m : Memory) (k : Nat) : ∀ c ∈ m.erase k, c.1 ≠ k := by
  intro c hc
  simpa using (List.mem_filter.mp hc).2

theorem lookup_erase_same (m : Memory) (k : Nat) : (m.erase k).lookup k = Memory.unwritten :=
  lookup_of_notMem _ _ (fst_ne_of_mem_erase m k)

theorem lookup_erase_other (m : Memory) (k j : Nat) (h : j ≠ k) :
    (m.erase k).lookup j = m.lookup j := by
  induction m with
  | nil => rfl
  | cons c m ih =>
    obtain ⟨k', v⟩ := c
    unfold erase at ih ⊢
    by_cases hk : k' = k
    · subst hk
      simp [lookup, h.symm, ih]
    · by_cases hj : k' = j
      · simp [lookup, hj, h]
      · simp [lookup, hk, hj, ih]

/-- Inserting at a key that no listed cell has. -/
theorem lookup_insert (m : Memory) (k j : Nat) (v : Word) (h : ∀ c ∈ m, c.1 ≠ k) :
    (m.insert k v).lookup j = if j = k then v else m.lookup j := by
  induction m with
  | nil => simp [insert, lookup, eq_comm]
  | cons c m ih =>
    obtain ⟨k', v'⟩ := c
    have hk : k' ≠ k := h (k', v') (by simp)
    have ih := ih fun d hd => h d (by simp [hd])
    by_cases hlt : k' < k
    · by_cases hj : k' = j
      · subst hj; simp [insert, hlt, lookup, hk]
      · simp [insert, hlt, lookup, hj, ih]
    · by_cases hj : j = k
      · simp [insert, hlt, lookup, hj]
      · simp [insert, hlt, lookup, Ne.symm hj, hj]

/-- A cell reads as the value last written to it, and every other cell as before (R43). -/
theorem read_write (m : Memory) (a b v : Word) :
    (m.write a v).read b = if b = a then v else m.read b := by
  have hab : b.toNat = a.toNat ↔ b = a := BitVec.toNat_inj
  unfold write read
  by_cases hv : v = Memory.unwritten
  · rw [if_pos hv]
    by_cases h : b = a
    · subst h; simp [lookup_erase_same, hv]
    · rw [lookup_erase_other _ _ _ (by simpa [hab] using h)]; simp [h]
  · rw [if_neg hv, lookup_insert _ _ _ _ (fst_ne_of_mem_erase m _)]
    by_cases h : b = a
    · simp [h]
    · rw [if_neg (by simpa [hab] using h), lookup_erase_other _ _ _ (by simpa [hab] using h)]
      simp [h]

@[simp] theorem read_write_same (m : Memory) (a v : Word) : (m.write a v).read a = v := by
  simp [read_write]

@[simp] theorem read_write_other (m : Memory) (a b v : Word) (h : b ≠ a) :
    (m.write a v).read b = m.read b := by
  simp [read_write, h]

/-- After reset every cell reads as zero (R41). -/
@[simp] theorem read_nil (a : Word) : Memory.read [] a = 0x0000#16 := rfl

theorem wf_nil : Memory.wf [] := ⟨List.Pairwise.nil, by simp⟩

theorem wf_erase (m : Memory) (k : Nat) (h : m.wf) : (m.erase k).wf :=
  ⟨h.1.filter _, fun c hc => h.2 c (List.mem_filter.mp hc).1⟩

theorem mem_insert (m : Memory) (k : Nat) (v : Word) (c : Nat × Word) (h : c ∈ m.insert k v) :
    c = (k, v) ∨ c ∈ m := by
  induction m with
  | nil => simpa [insert] using h
  | cons d m ih =>
    by_cases hlt : d.1 < k
    · simp only [insert, hlt, if_true, List.mem_cons] at h
      rcases h with h | h
      · simp [h]
      · rcases ih h with h | h <;> simp [h]
    · simpa [insert, hlt] using h

/-- Inserting in range, at a key no listed cell has, a value that does not read as unlisted. -/
theorem wf_insert (m : Memory) (k : Nat) (v : Word) (h : m.wf) (hk : k < 65536)
    (hv : v ≠ Memory.unwritten) (hm : ∀ c ∈ m, c.1 ≠ k) : (m.insert k v).wf := by
  refine ⟨?_, fun c hc => ?_⟩
  · have hp := h.1
    clear h
    induction m with
    | nil => simp [insert]
    | cons d m ih =>
      have hd := List.pairwise_cons.mp hp
      have hne : d.1 ≠ k := hm d (by simp)
      by_cases hlt : d.1 < k
      · simp only [insert, hlt, if_true]
        refine List.pairwise_cons.mpr ⟨fun c hc => ?_, ih (fun c hc => hm c (by simp [hc])) hd.2⟩
        rcases mem_insert _ _ _ _ hc with rfl | hc
        · exact hlt
        · exact hd.1 c hc
      · simp only [insert, hlt, if_false]
        have hkd : k < d.1 := by omega
        refine List.pairwise_cons.mpr ⟨fun c hc => ?_, hp⟩
        rcases List.mem_cons.mp hc with rfl | hc
        · exact hkd
        · exact lt_trans hkd (hd.1 c hc)
  · rcases mem_insert _ _ _ _ hc with rfl | hc
    · exact ⟨hk, hv⟩
    · exact h.2 c hc

/-- A write keeps the canonical form. -/
theorem wf_write (m : Memory) (a v : Word) (h : m.wf) : (m.write a v).wf := by
  unfold write
  split
  · exact wf_erase m _ h
  · exact wf_insert _ _ _ (wf_erase m _ h) (by simpa using a.isLt) ‹_› (fst_ne_of_mem_erase m _)

end Memory

/-- A cell after a store, seen from any address. -/
theorem State.memRead_memWrite (s : State) (a b v : Word) :
    (s.memWrite a v).memRead b = if b = a then v else s.memRead b :=
  Memory.read_write s.mem a b v

@[simp] theorem State.memRead_memWrite_same (s : State) (a v : Word) :
    (s.memWrite a v).memRead a = v :=
  Memory.read_write_same s.mem a v

@[simp] theorem State.memRead_memWrite_other (s : State) (a b v : Word) (h : b ≠ a) :
    (s.memWrite a v).memRead b = s.memRead b :=
  Memory.read_write_other s.mem a b v h

theorem State.reset_mem_wf : State.reset.mem.wf := Memory.wf_nil

end Sys2Proof.Machine
end

