-- ==== Sys2Proof/Laws/Ops.lean ====
section
/-! SUPPORT. One spec lemma per shared operation: what it changes, and what it leaves alone. -/

namespace Sys2Proof.Machine

variable (s : State)

/-! ### The condition register -/

/-- R25 as three cases, each with its sign. -/
theorem condOf_cases (v : Word) :
    (v = 0x0000#16 ∧ condOf v = 0b010#3) ∨
    (v ≠ 0x0000#16 ∧ v.getLsbD 15 = true ∧ condOf v = 0b100#3) ∨
    (v ≠ 0x0000#16 ∧ v.getLsbD 15 = false ∧ condOf v = 0b001#3) := by
  unfold condOf Cond.z Cond.n Cond.p
  by_cases h0 : v = 0x0000#16
  · exact .inl ⟨h0, if_pos h0⟩
  · cases hm : v.getLsbD 15 <;> simp [h0]

/-- Exactly one flag is set (R25). -/
theorem condOf_one_flag (v : Word) :
    condOf v = 0b100#3 ∨ condOf v = 0b010#3 ∨ condOf v = 0b001#3 := by
  rcases condOf_cases v with ⟨_, h⟩ | ⟨_, _, h⟩ | ⟨_, _, h⟩ <;> simp [h]

@[simp] theorem State.setcc_cond (r : Reg) : (s.setcc r).cond = condOf (s.reg r) := rfl
@[simp] theorem State.writeResult_cond (r : Reg) (v : Word) :
    (s.writeResult r v).cond = condOf v := by
  simp [State.writeResult]
/-- A result register, seen from any register. -/
theorem State.reg_writeResult (r i : Reg) (v : Word) :
    (s.writeResult r v).reg i = if i = r then v else s.reg i :=
  State.reg_setReg s r i v
@[simp] theorem State.reg_writeResult_same (r : Reg) (v : Word) :
    (s.writeResult r v).reg r = v := by
  simp [State.reg_writeResult]
@[simp] theorem State.reg_writeResult_other (r i : Reg) (v : Word) (h : i ≠ r) :
    (s.writeResult r v).reg i = s.reg i := by
  simp [State.reg_writeResult, h]

/-! What `setcc` leaves alone. -/
@[simp] theorem State.setcc_regs (r : Reg) : (s.setcc r).regs = s.regs := rfl
@[simp] theorem State.setcc_pc (r : Reg) : (s.setcc r).pc = s.pc := rfl
@[simp] theorem State.setcc_running (r : Reg) : (s.setcc r).running = s.running := rfl
@[simp] theorem State.setcc_lifecycle (r : Reg) : (s.setcc r).lifecycle = s.lifecycle := rfl
@[simp] theorem State.setcc_faultStatus (r : Reg) : (s.setcc r).faultStatus = s.faultStatus := rfl
@[simp] theorem State.setcc_inputWait (r : Reg) : (s.setcc r).inputWait = s.inputWait := rfl
@[simp] theorem State.setcc_openScan (r : Reg) : (s.setcc r).openScan = s.openScan := rfl
@[simp] theorem State.setcc_ir (r : Reg) : (s.setcc r).ir = s.ir := rfl
@[simp] theorem State.setcc_mem (r : Reg) : (s.setcc r).mem = s.mem := rfl
@[simp] theorem State.setcc_consoleIn (r : Reg) : (s.setcc r).consoleIn = s.consoleIn := rfl
@[simp] theorem State.setcc_consoleOut (r : Reg) : (s.setcc r).consoleOut = s.consoleOut := rfl
@[simp] theorem State.setcc_consoleFlushed (r : Reg) : (s.setcc r).consoleFlushed = s.consoleFlushed :=
  rfl
@[simp] theorem State.memRead_setcc (x : Word) (r : Reg) : (s.setcc r).memRead x = s.memRead x :=
  rfl
@[simp] theorem State.reg_setcc (i : Reg) (r : Reg) : (s.setcc r).reg i = s.reg i := rfl

/-! What `writeResult` leaves alone. -/
@[simp] theorem State.writeResult_pc (r : Reg) (v : Word) : (s.writeResult r v).pc = s.pc := rfl
@[simp] theorem State.writeResult_running (r : Reg) (v : Word) : (s.writeResult r v).running = s.running :=
  rfl
@[simp] theorem State.writeResult_lifecycle (r : Reg) (v : Word) : (s.writeResult r v).lifecycle = s.lifecycle :=
  rfl
@[simp] theorem State.writeResult_faultStatus (r : Reg) (v : Word) : (s.writeResult r v).faultStatus = s.faultStatus :=
  rfl
@[simp] theorem State.writeResult_inputWait (r : Reg) (v : Word) : (s.writeResult r v).inputWait = s.inputWait :=
  rfl
@[simp] theorem State.writeResult_openScan (r : Reg) (v : Word) : (s.writeResult r v).openScan = s.openScan :=
  rfl
@[simp] theorem State.writeResult_ir (r : Reg) (v : Word) : (s.writeResult r v).ir = s.ir := rfl
@[simp] theorem State.writeResult_mem (r : Reg) (v : Word) : (s.writeResult r v).mem = s.mem := rfl
@[simp] theorem State.writeResult_consoleIn (r : Reg) (v : Word) : (s.writeResult r v).consoleIn = s.consoleIn :=
  rfl
@[simp] theorem State.writeResult_consoleOut (r : Reg) (v : Word) : (s.writeResult r v).consoleOut = s.consoleOut :=
  rfl
@[simp] theorem State.writeResult_consoleFlushed (r : Reg) (v : Word) : (s.writeResult r v).consoleFlushed = s.consoleFlushed :=
  rfl
@[simp] theorem State.memRead_writeResult (x : Word) (r : Reg) (v : Word) : (s.writeResult r v).memRead x = s.memRead x :=
  rfl

/-! ### Fetch and the loop test -/

@[simp] theorem State.fetch_ir : s.fetch.ir = s.memRead s.pc := rfl
@[simp] theorem State.fetch_pc : s.fetch.pc = s.pc + 1 := rfl
theorem State.loopTest_of_running (h : s.running = true) : s.loopTest = s := by
  simp [State.loopTest, h]
theorem State.loopTest_of_stopped (h : s.running = false) :
    s.loopTest = s.setLifecycle .halted := by
  simp [State.loopTest, h]
theorem State.loopTest_lifecycle :
    s.loopTest.lifecycle = if s.running then s.lifecycle else .halted := by
  unfold State.loopTest; split <;> simp

/-! What `fetch` leaves alone. -/
@[simp] theorem State.fetch_regs : (s.fetch).regs = s.regs := rfl
@[simp] theorem State.fetch_cond : (s.fetch).cond = s.cond := rfl
@[simp] theorem State.fetch_running : (s.fetch).running = s.running := rfl
@[simp] theorem State.fetch_lifecycle : (s.fetch).lifecycle = s.lifecycle := rfl
@[simp] theorem State.fetch_faultStatus : (s.fetch).faultStatus = s.faultStatus := rfl
@[simp] theorem State.fetch_inputWait : (s.fetch).inputWait = s.inputWait := rfl
@[simp] theorem State.fetch_openScan : (s.fetch).openScan = s.openScan := rfl
@[simp] theorem State.fetch_mem : (s.fetch).mem = s.mem := rfl
@[simp] theorem State.fetch_consoleIn : (s.fetch).consoleIn = s.consoleIn := rfl
@[simp] theorem State.fetch_consoleOut : (s.fetch).consoleOut = s.consoleOut := rfl
@[simp] theorem State.fetch_consoleFlushed : (s.fetch).consoleFlushed = s.consoleFlushed := rfl
@[simp] theorem State.memRead_fetch (x : Word) : (s.fetch).memRead x = s.memRead x := rfl
@[simp] theorem State.reg_fetch (i : Reg) : (s.fetch).reg i = s.reg i := rfl

/-! What `loopTest` leaves alone. -/
@[simp] theorem State.loopTest_regs : (s.loopTest).regs = s.regs :=
  by
  unfold State.loopTest; split <;> rfl
@[simp] theorem State.loopTest_pc : (s.loopTest).pc = s.pc :=
  by
  unfold State.loopTest; split <;> rfl
@[simp] theorem State.loopTest_cond : (s.loopTest).cond = s.cond :=
  by
  unfold State.loopTest; split <;> rfl
@[simp] theorem State.loopTest_running : (s.loopTest).running = s.running :=
  by
  unfold State.loopTest; split <;> rfl
@[simp] theorem State.loopTest_faultStatus : (s.loopTest).faultStatus = s.faultStatus :=
  by
  unfold State.loopTest; split <;> rfl
@[simp] theorem State.loopTest_inputWait : (s.loopTest).inputWait = s.inputWait :=
  by
  unfold State.loopTest; split <;> rfl
@[simp] theorem State.loopTest_openScan : (s.loopTest).openScan = s.openScan :=
  by
  unfold State.loopTest; split <;> rfl
@[simp] theorem State.loopTest_ir : (s.loopTest).ir = s.ir :=
  by
  unfold State.loopTest; split <;> rfl
@[simp] theorem State.loopTest_mem : (s.loopTest).mem = s.mem :=
  by
  unfold State.loopTest; split <;> rfl
@[simp] theorem State.loopTest_consoleIn : (s.loopTest).consoleIn = s.consoleIn :=
  by
  unfold State.loopTest; split <;> rfl
@[simp] theorem State.loopTest_consoleOut : (s.loopTest).consoleOut = s.consoleOut :=
  by
  unfold State.loopTest; split <;> rfl
@[simp] theorem State.loopTest_consoleFlushed : (s.loopTest).consoleFlushed = s.consoleFlushed :=
  by
  unfold State.loopTest; split <;> rfl
@[simp] theorem State.memRead_loopTest (x : Word) : (s.loopTest).memRead x = s.memRead x :=
  by
  unfold State.loopTest; split <;> rfl
@[simp] theorem State.reg_loopTest (i : Reg) : (s.loopTest).reg i = s.reg i :=
  by
  unfold State.loopTest; split <;> rfl

/-! ### Trap entry, the link register, the exception -/

theorem State.reg_enterTrap (i : Reg) :
    s.enterTrap.reg i = if i = .r7 then s.pc else s.reg i :=
  State.reg_setReg s .r7 i s.pc
theorem State.reg_link (i : Reg) : s.link.reg i = if i = .r7 then s.pc else s.reg i :=
  State.reg_setReg s .r7 i s.pc
@[simp] theorem State.returnFromTrap_eq : s.returnFromTrap = s := rfl
@[simp] theorem State.raiseUndefinedTrapVector_running (v : Byte) :
    (s.raiseUndefinedTrapVector v).running = false := rfl
@[simp] theorem State.raiseUndefinedTrapVector_faultStatus (v : Byte) :
    (s.raiseUndefinedTrapVector v).faultStatus = some (.undefinedTrapVector v (s.pc - 1)) := rfl

/-! What `enterTrap` leaves alone. -/
@[simp] theorem State.enterTrap_pc : (s.enterTrap).pc = s.pc := rfl
@[simp] theorem State.enterTrap_cond : (s.enterTrap).cond = s.cond := rfl
@[simp] theorem State.enterTrap_running : (s.enterTrap).running = s.running := rfl
@[simp] theorem State.enterTrap_lifecycle : (s.enterTrap).lifecycle = s.lifecycle := rfl
@[simp] theorem State.enterTrap_faultStatus : (s.enterTrap).faultStatus = s.faultStatus := rfl
@[simp] theorem State.enterTrap_inputWait : (s.enterTrap).inputWait = s.inputWait := rfl
@[simp] theorem State.enterTrap_openScan : (s.enterTrap).openScan = s.openScan := rfl
@[simp] theorem State.enterTrap_ir : (s.enterTrap).ir = s.ir := rfl
@[simp] theorem State.enterTrap_mem : (s.enterTrap).mem = s.mem := rfl
@[simp] theorem State.enterTrap_consoleIn : (s.enterTrap).consoleIn = s.consoleIn := rfl
@[simp] theorem State.enterTrap_consoleOut : (s.enterTrap).consoleOut = s.consoleOut := rfl
@[simp] theorem State.enterTrap_consoleFlushed : (s.enterTrap).consoleFlushed = s.consoleFlushed :=
  rfl
@[simp] theorem State.memRead_enterTrap (x : Word) : (s.enterTrap).memRead x = s.memRead x := rfl

/-! What `link` leaves alone. -/
@[simp] theorem State.link_pc : (s.link).pc = s.pc := rfl
@[simp] theorem State.link_cond : (s.link).cond = s.cond := rfl
@[simp] theorem State.link_running : (s.link).running = s.running := rfl
@[simp] theorem State.link_lifecycle : (s.link).lifecycle = s.lifecycle := rfl
@[simp] theorem State.link_faultStatus : (s.link).faultStatus = s.faultStatus := rfl
@[simp] theorem State.link_inputWait : (s.link).inputWait = s.inputWait := rfl
@[simp] theorem State.link_openScan : (s.link).openScan = s.openScan := rfl
@[simp] theorem State.link_ir : (s.link).ir = s.ir := rfl
@[simp] theorem State.link_mem : (s.link).mem = s.mem := rfl
@[simp] theorem State.link_consoleIn : (s.link).consoleIn = s.consoleIn := rfl
@[simp] theorem State.link_consoleOut : (s.link).consoleOut = s.consoleOut := rfl
@[simp] theorem State.link_consoleFlushed : (s.link).consoleFlushed = s.consoleFlushed := rfl
@[simp] theorem State.memRead_link (x : Word) : (s.link).memRead x = s.memRead x := rfl

/-! What `raiseUndefinedTrapVector` leaves alone. -/
@[simp] theorem State.raiseUndefinedTrapVector_regs (v : Byte) : (s.raiseUndefinedTrapVector v).regs = s.regs :=
  rfl
@[simp] theorem State.raiseUndefinedTrapVector_pc (v : Byte) : (s.raiseUndefinedTrapVector v).pc = s.pc :=
  rfl
@[simp] theorem State.raiseUndefinedTrapVector_cond (v : Byte) : (s.raiseUndefinedTrapVector v).cond = s.cond :=
  rfl
@[simp] theorem State.raiseUndefinedTrapVector_lifecycle (v : Byte) : (s.raiseUndefinedTrapVector v).lifecycle = s.lifecycle :=
  rfl
@[simp] theorem State.raiseUndefinedTrapVector_inputWait (v : Byte) : (s.raiseUndefinedTrapVector v).inputWait = s.inputWait :=
  rfl
@[simp] theorem State.raiseUndefinedTrapVector_openScan (v : Byte) : (s.raiseUndefinedTrapVector v).openScan = s.openScan :=
  rfl
@[simp] theorem State.raiseUndefinedTrapVector_ir (v : Byte) : (s.raiseUndefinedTrapVector v).ir = s.ir :=
  rfl
@[simp] theorem State.raiseUndefinedTrapVector_mem (v : Byte) : (s.raiseUndefinedTrapVector v).mem = s.mem :=
  rfl
@[simp] theorem State.raiseUndefinedTrapVector_consoleIn (v : Byte) : (s.raiseUndefinedTrapVector v).consoleIn = s.consoleIn :=
  rfl
@[simp] theorem State.raiseUndefinedTrapVector_consoleOut (v : Byte) : (s.raiseUndefinedTrapVector v).consoleOut = s.consoleOut :=
  rfl
@[simp] theorem State.raiseUndefinedTrapVector_consoleFlushed (v : Byte) : (s.raiseUndefinedTrapVector v).consoleFlushed = s.consoleFlushed :=
  rfl
@[simp] theorem State.memRead_raiseUndefinedTrapVector (x : Word) (v : Byte) : (s.raiseUndefinedTrapVector v).memRead x = s.memRead x :=
  rfl
@[simp] theorem State.reg_raiseUndefinedTrapVector (i : Reg) (v : Byte) : (s.raiseUndefinedTrapVector v).reg i = s.reg i :=
  rfl

/-! ### Console reads -/

/-- With no character the read only sets the input wait (10_state.md R31). -/
theorem State.readChar_blocks (k : ConsoleRead) (h : s.consoleIn = []) :
    s.readChar k = s.setInputWait (some k) := by
  simp [State.readChar, State.consoleRead, h]

/-- GETC's read of an available character (43_trap_system.md R143). -/
theorem State.readChar_noEcho (c : Byte) (rest : List Byte) (h : s.consoleIn = c :: rest) :
    s.readChar .noEcho =
      ((s.setConsoleIn rest).setInputWait none).setReg .r0 (zext8 c) := by
  simp [State.readChar, State.consoleRead, h]

/-- IN's read of an available character (43_trap_system.md R146). -/
theorem State.readChar_echo (c : Byte) (rest : List Byte) (h : s.consoleIn = c :: rest) :
    s.readChar .echo =
      ((((s.setConsoleIn rest).consoleWriteAll [c]).setInputWait none).setReg .r0
        (zext8 c)).consoleFlush := by
  simp [State.readChar, State.consoleRead, State.consoleWrite, h]

/-- The two outcomes of a read. -/
theorem State.readChar_cases (k : ConsoleRead) :
    (s.consoleIn = [] ∧ s.readChar k = s.setInputWait (some k)) ∨
    ∃ c rest, s.consoleIn = c :: rest ∧
      ((k = .noEcho ∧ s.readChar k =
          ((s.setConsoleIn rest).setInputWait none).setReg .r0 (zext8 c)) ∨
       (k = .echo ∧ s.readChar k =
          ((((s.setConsoleIn rest).consoleWriteAll [c]).setInputWait none).setReg .r0
            (zext8 c)).consoleFlush)) := by
  cases h : s.consoleIn with
  | nil => exact .inl ⟨rfl, s.readChar_blocks k h⟩
  | cons c rest =>
    refine .inr ⟨c, rest, rfl, ?_⟩
    cases k with
    | noEcho => exact .inl ⟨rfl, s.readChar_noEcho c rest h⟩
    | echo => exact .inr ⟨rfl, s.readChar_echo c rest h⟩

@[simp] theorem State.reg_readChar_other (k : ConsoleRead) (i : Reg) (hi : i ≠ .r0) :
    (s.readChar k).reg i = s.reg i := by
  rcases s.readChar_cases k with ⟨_, h⟩ | ⟨c, rest, _, ⟨_, h⟩ | ⟨_, h⟩⟩ <;> simp [h, hi]

/-! What `readChar` leaves alone. -/
@[simp] theorem State.readChar_pc (k : ConsoleRead) : (s.readChar k).pc = s.pc :=
  by
  rcases s.readChar_cases k with ⟨_, h⟩ | ⟨c, rest, _, ⟨_, h⟩ | ⟨_, h⟩⟩ <;> simp [h]
@[simp] theorem State.readChar_cond (k : ConsoleRead) : (s.readChar k).cond = s.cond :=
  by
  rcases s.readChar_cases k with ⟨_, h⟩ | ⟨c, rest, _, ⟨_, h⟩ | ⟨_, h⟩⟩ <;> simp [h]
@[simp] theorem State.readChar_running (k : ConsoleRead) : (s.readChar k).running = s.running :=
  by
  rcases s.readChar_cases k with ⟨_, h⟩ | ⟨c, rest, _, ⟨_, h⟩ | ⟨_, h⟩⟩ <;> simp [h]
@[simp] theorem State.readChar_lifecycle (k : ConsoleRead) : (s.readChar k).lifecycle = s.lifecycle :=
  by
  rcases s.readChar_cases k with ⟨_, h⟩ | ⟨c, rest, _, ⟨_, h⟩ | ⟨_, h⟩⟩ <;> simp [h]
@[simp] theorem State.readChar_faultStatus (k : ConsoleRead) : (s.readChar k).faultStatus = s.faultStatus :=
  by
  rcases s.readChar_cases k with ⟨_, h⟩ | ⟨c, rest, _, ⟨_, h⟩ | ⟨_, h⟩⟩ <;> simp [h]
@[simp] theorem State.readChar_openScan (k : ConsoleRead) : (s.readChar k).openScan = s.openScan :=
  by
  rcases s.readChar_cases k with ⟨_, h⟩ | ⟨c, rest, _, ⟨_, h⟩ | ⟨_, h⟩⟩ <;> simp [h]
@[simp] theorem State.readChar_ir (k : ConsoleRead) : (s.readChar k).ir = s.ir :=
  by
  rcases s.readChar_cases k with ⟨_, h⟩ | ⟨c, rest, _, ⟨_, h⟩ | ⟨_, h⟩⟩ <;> simp [h]
@[simp] theorem State.readChar_mem (k : ConsoleRead) : (s.readChar k).mem = s.mem :=
  by
  rcases s.readChar_cases k with ⟨_, h⟩ | ⟨c, rest, _, ⟨_, h⟩ | ⟨_, h⟩⟩ <;> simp [h]
@[simp] theorem State.memRead_readChar (x : Word) (k : ConsoleRead) : (s.readChar k).memRead x = s.memRead x :=
  by
  rcases s.readChar_cases k with ⟨_, h⟩ | ⟨c, rest, _, ⟨_, h⟩ | ⟨_, h⟩⟩ <;> simp [h]

/-! ### Scans -/

/-- PUTS and PUTSP either write a whole string and flush, or enter the endless scan
(43_trap_system.md R145, R147). -/
theorem State.runScan_cases (r : ScanRoutine) :
    (∃ bs, scanBytes r s.mem scanLimit (s.reg .r0) = some bs ∧
      s.runScan r = (s.consoleWriteAll bs).consoleFlush) ∨
    (scanBytes r s.mem scanLimit (s.reg .r0) = none ∧
      s.runScan r = s.setOpenScan (some { routine := r, addr := s.reg .r0 })) := by
  unfold State.runScan
  cases h : scanBytes r s.mem scanLimit (s.reg .r0) with
  | some bs => exact .inl ⟨bs, rfl, rfl⟩
  | none => exact .inr ⟨rfl, rfl⟩

/-- One cell of an endless scan. -/
theorem State.scanOneCell_cases (o : OpenScan) :
    ((scanCell o.routine (s.memRead o.addr)).2 = true ∧ s.scanOneCell o =
      ((s.consoleWriteAll (scanCell o.routine (s.memRead o.addr)).1).consoleFlush).setOpenScan
        none) ∨
    ((scanCell o.routine (s.memRead o.addr)).2 = false ∧ s.scanOneCell o =
      (s.consoleWriteAll (scanCell o.routine (s.memRead o.addr)).1).setOpenScan
        (some { o with addr := o.addr + 1 })) := by
  unfold State.scanOneCell
  rcases h : scanCell o.routine (s.memRead o.addr) with ⟨bs, fin⟩
  cases fin
  · exact .inr ⟨rfl, rfl⟩
  · exact .inl ⟨rfl, rfl⟩

/-! What `runScan` leaves alone. -/
@[simp] theorem State.runScan_regs (r : ScanRoutine) : (s.runScan r).regs = s.regs :=
  by
  rcases s.runScan_cases r with ⟨bs, _, h⟩ | ⟨_, h⟩ <;> simp [h]
@[simp] theorem State.runScan_pc (r : ScanRoutine) : (s.runScan r).pc = s.pc :=
  by
  rcases s.runScan_cases r with ⟨bs, _, h⟩ | ⟨_, h⟩ <;> simp [h]
@[simp] theorem State.runScan_cond (r : ScanRoutine) : (s.runScan r).cond = s.cond :=
  by
  rcases s.runScan_cases r with ⟨bs, _, h⟩ | ⟨_, h⟩ <;> simp [h]
@[simp] theorem State.runScan_running (r : ScanRoutine) : (s.runScan r).running = s.running :=
  by
  rcases s.runScan_cases r with ⟨bs, _, h⟩ | ⟨_, h⟩ <;> simp [h]
@[simp] theorem State.runScan_lifecycle (r : ScanRoutine) : (s.runScan r).lifecycle = s.lifecycle :=
  by
  rcases s.runScan_cases r with ⟨bs, _, h⟩ | ⟨_, h⟩ <;> simp [h]
@[simp] theorem State.runScan_faultStatus (r : ScanRoutine) : (s.runScan r).faultStatus = s.faultStatus :=
  by
  rcases s.runScan_cases r with ⟨bs, _, h⟩ | ⟨_, h⟩ <;> simp [h]
@[simp] theorem State.runScan_inputWait (r : ScanRoutine) : (s.runScan r).inputWait = s.inputWait :=
  by
  rcases s.runScan_cases r with ⟨bs, _, h⟩ | ⟨_, h⟩ <;> simp [h]
@[simp] theorem State.runScan_ir (r : ScanRoutine) : (s.runScan r).ir = s.ir :=
  by
  rcases s.runScan_cases r with ⟨bs, _, h⟩ | ⟨_, h⟩ <;> simp [h]
@[simp] theorem State.runScan_mem (r : ScanRoutine) : (s.runScan r).mem = s.mem :=
  by
  rcases s.runScan_cases r with ⟨bs, _, h⟩ | ⟨_, h⟩ <;> simp [h]
@[simp] theorem State.runScan_consoleIn (r : ScanRoutine) : (s.runScan r).consoleIn = s.consoleIn :=
  by
  rcases s.runScan_cases r with ⟨bs, _, h⟩ | ⟨_, h⟩ <;> simp [h]
@[simp] theorem State.memRead_runScan (x : Word) (r : ScanRoutine) : (s.runScan r).memRead x = s.memRead x :=
  by
  rcases s.runScan_cases r with ⟨bs, _, h⟩ | ⟨_, h⟩ <;> simp [h]
@[simp] theorem State.reg_runScan (i : Reg) (r : ScanRoutine) : (s.runScan r).reg i = s.reg i :=
  by
  rcases s.runScan_cases r with ⟨bs, _, h⟩ | ⟨_, h⟩ <;> simp [h]

/-! What `scanOneCell` leaves alone. -/
@[simp] theorem State.scanOneCell_regs (o : OpenScan) : (s.scanOneCell o).regs = s.regs :=
  by
  rcases s.scanOneCell_cases o with ⟨_, h⟩ | ⟨_, h⟩ <;> simp [h]
@[simp] theorem State.scanOneCell_pc (o : OpenScan) : (s.scanOneCell o).pc = s.pc :=
  by
  rcases s.scanOneCell_cases o with ⟨_, h⟩ | ⟨_, h⟩ <;> simp [h]
@[simp] theorem State.scanOneCell_cond (o : OpenScan) : (s.scanOneCell o).cond = s.cond :=
  by
  rcases s.scanOneCell_cases o with ⟨_, h⟩ | ⟨_, h⟩ <;> simp [h]
@[simp] theorem State.scanOneCell_running (o : OpenScan) : (s.scanOneCell o).running = s.running :=
  by
  rcases s.scanOneCell_cases o with ⟨_, h⟩ | ⟨_, h⟩ <;> simp [h]
@[simp] theorem State.scanOneCell_lifecycle (o : OpenScan) : (s.scanOneCell o).lifecycle = s.lifecycle :=
  by
  rcases s.scanOneCell_cases o with ⟨_, h⟩ | ⟨_, h⟩ <;> simp [h]
@[simp] theorem State.scanOneCell_faultStatus (o : OpenScan) : (s.scanOneCell o).faultStatus = s.faultStatus :=
  by
  rcases s.scanOneCell_cases o with ⟨_, h⟩ | ⟨_, h⟩ <;> simp [h]
@[simp] theorem State.scanOneCell_inputWait (o : OpenScan) : (s.scanOneCell o).inputWait = s.inputWait :=
  by
  rcases s.scanOneCell_cases o with ⟨_, h⟩ | ⟨_, h⟩ <;> simp [h]
@[simp] theorem State.scanOneCell_ir (o : OpenScan) : (s.scanOneCell o).ir = s.ir :=
  by
  rcases s.scanOneCell_cases o with ⟨_, h⟩ | ⟨_, h⟩ <;> simp [h]
@[simp] theorem State.scanOneCell_mem (o : OpenScan) : (s.scanOneCell o).mem = s.mem :=
  by
  rcases s.scanOneCell_cases o with ⟨_, h⟩ | ⟨_, h⟩ <;> simp [h]
@[simp] theorem State.scanOneCell_consoleIn (o : OpenScan) : (s.scanOneCell o).consoleIn = s.consoleIn :=
  by
  rcases s.scanOneCell_cases o with ⟨_, h⟩ | ⟨_, h⟩ <;> simp [h]
@[simp] theorem State.memRead_scanOneCell (x : Word) (o : OpenScan) : (s.scanOneCell o).memRead x = s.memRead x :=
  by
  rcases s.scanOneCell_cases o with ⟨_, h⟩ | ⟨_, h⟩ <;> simp [h]
@[simp] theorem State.reg_scanOneCell (i : Reg) (o : OpenScan) : (s.scanOneCell o).reg i = s.reg i :=
  by
  rcases s.scanOneCell_cases o with ⟨_, h⟩ | ⟨_, h⟩ <;> simp [h]

/-! ### The trap dispatcher -/

/-- R70's table: the routine of each defined vector, and the exception for every other. -/
theorem State.dispatchTrap_cases (v : Byte) :
    (v = 0x20#8 ∧ s.dispatchTrap v = s.trapGetc) ∨ (v = 0x21#8 ∧ s.dispatchTrap v = s.trapOut) ∨
    (v = 0x22#8 ∧ s.dispatchTrap v = s.trapPuts) ∨ (v = 0x23#8 ∧ s.dispatchTrap v = s.trapIn) ∨
    (v = 0x24#8 ∧ s.dispatchTrap v = s.trapPutsp) ∨
    (v = 0x25#8 ∧ s.dispatchTrap v = s.trapHalt) ∨
    (trapVectorDefined v = false ∧ s.dispatchTrap v = s.raiseUndefinedTrapVector v) := by
  unfold State.dispatchTrap
  by_cases h0 : v = 0x20#8
  · simp [h0]
  by_cases h1 : v = 0x21#8
  · simp [h1]
  by_cases h2 : v = 0x22#8
  · simp [h2]
  by_cases h3 : v = 0x23#8
  · simp [h3]
  by_cases h4 : v = 0x24#8
  · simp [h4]
  by_cases h5 : v = 0x25#8
  · simp [h5]
  have hd : trapVectorDefined v = false := by
    simp only [trapVectorDefined, ← BitVec.toNat_inj, BitVec.le_def] at *
    simp at *
    omega
  simp [h0, h1, h2, h3, h4, h5, hd]

/-! What `dispatchTrap` leaves alone. -/
@[simp] theorem State.dispatchTrap_pc (v : Byte) : (s.dispatchTrap v).pc = s.pc :=
  by
  rcases s.dispatchTrap_cases v with ⟨_, h⟩ | ⟨_, h⟩ | ⟨_, h⟩ | ⟨_, h⟩ | ⟨_, h⟩ | ⟨_, h⟩ | ⟨_, h⟩ <;>
  simp [h, State.trapGetc, State.trapOut, State.trapPuts, State.trapIn, State.trapPutsp,
    State.trapHalt, State.consoleWrite]
@[simp] theorem State.dispatchTrap_cond (v : Byte) : (s.dispatchTrap v).cond = s.cond :=
  by
  rcases s.dispatchTrap_cases v with ⟨_, h⟩ | ⟨_, h⟩ | ⟨_, h⟩ | ⟨_, h⟩ | ⟨_, h⟩ | ⟨_, h⟩ | ⟨_, h⟩ <;>
  simp [h, State.trapGetc, State.trapOut, State.trapPuts, State.trapIn, State.trapPutsp,
    State.trapHalt, State.consoleWrite]
@[simp] theorem State.dispatchTrap_lifecycle (v : Byte) : (s.dispatchTrap v).lifecycle = s.lifecycle :=
  by
  rcases s.dispatchTrap_cases v with ⟨_, h⟩ | ⟨_, h⟩ | ⟨_, h⟩ | ⟨_, h⟩ | ⟨_, h⟩ | ⟨_, h⟩ | ⟨_, h⟩ <;>
  simp [h, State.trapGetc, State.trapOut, State.trapPuts, State.trapIn, State.trapPutsp,
    State.trapHalt, State.consoleWrite]
@[simp] theorem State.dispatchTrap_ir (v : Byte) : (s.dispatchTrap v).ir = s.ir :=
  by
  rcases s.dispatchTrap_cases v with ⟨_, h⟩ | ⟨_, h⟩ | ⟨_, h⟩ | ⟨_, h⟩ | ⟨_, h⟩ | ⟨_, h⟩ | ⟨_, h⟩ <;>
  simp [h, State.trapGetc, State.trapOut, State.trapPuts, State.trapIn, State.trapPutsp,
    State.trapHalt, State.consoleWrite]
@[simp] theorem State.dispatchTrap_mem (v : Byte) : (s.dispatchTrap v).mem = s.mem :=
  by
  rcases s.dispatchTrap_cases v with ⟨_, h⟩ | ⟨_, h⟩ | ⟨_, h⟩ | ⟨_, h⟩ | ⟨_, h⟩ | ⟨_, h⟩ | ⟨_, h⟩ <;>
  simp [h, State.trapGetc, State.trapOut, State.trapPuts, State.trapIn, State.trapPutsp,
    State.trapHalt, State.consoleWrite]
@[simp] theorem State.memRead_dispatchTrap (x : Word) (v : Byte) : (s.dispatchTrap v).memRead x = s.memRead x :=
  by
  rcases s.dispatchTrap_cases v with ⟨_, h⟩ | ⟨_, h⟩ | ⟨_, h⟩ | ⟨_, h⟩ | ⟨_, h⟩ | ⟨_, h⟩ | ⟨_, h⟩ <;>
  simp [h, State.trapGetc, State.trapOut, State.trapPuts, State.trapIn, State.trapPutsp,
    State.trapHalt, State.consoleWrite]

@[simp] theorem State.reg_dispatchTrap_other (v : Byte) (i : Reg) (hi : i ≠ .r0) :
    (s.dispatchTrap v).reg i = s.reg i := by
  rcases s.dispatchTrap_cases v with ⟨_, h⟩ | ⟨_, h⟩ | ⟨_, h⟩ | ⟨_, h⟩ | ⟨_, h⟩ | ⟨_, h⟩ | ⟨_, h⟩ <;>
  simp [h, hi, State.trapGetc, State.trapOut, State.trapPuts, State.trapIn, State.trapPutsp,
    State.trapHalt, State.consoleWrite]

/-! ### Instructions and steps -/

/-- Every instruction answers a next state, in every state: no encoding is illegal and nothing stops
the machine but the running flag (30_encoding.md R69, 60_exceptions.md R170). -/
theorem exec_answers_next (i : Instr) : ∃ t, exec i s = .next t := by
  cases i <;> exact ⟨_, rfl⟩

/-- A cycle is the handler of the fetched word, then the loop test (30_encoding.md R80 to R82). -/
theorem cycle_eq (t : State) (h : exec (decode (s.memRead s.pc)) s.fetch = .next t) :
    cycle s = .next t.loopTest := by
  simp [cycle, h]

/-- What a step can be. -/
theorem step_cases :
    (s.engineAction = .rest ∧ step s = .next s) ∨
    (∃ k, s.engineAction = .awaitInput k ∧ step s = .next (s.readChar k)) ∨
    (∃ o, s.engineAction = .scanOn o ∧ step s = .next (s.scanOneCell o)) ∨
    (s.engineAction = .cycle ∧ ∃ t, exec (decode (s.memRead s.pc)) s.fetch = .next t ∧
      step s = .next t.loopTest) := by
  cases h : s.engineAction with
  | rest => exact .inl ⟨rfl, by simp [step, h]⟩
  | awaitInput k => exact .inr (.inl ⟨k, rfl, by simp [step, h]⟩)
  | scanOn o => exact .inr (.inr (.inl ⟨o, rfl, by simp [step, h]⟩))
  | cycle =>
    obtain ⟨t, ht⟩ := exec_answers_next s.fetch (decode (s.memRead s.pc))
    exact .inr (.inr (.inr ⟨rfl, t, ht, by simp [step, h, cycle_eq s t ht]⟩))

/-- The engine's choice, read off lifecycle, input wait and endless scan. -/
theorem State.engineAction_cases :
    (s.lifecycle ≠ .running ∧ s.engineAction = .rest) ∨
    (s.lifecycle = .running ∧ ∃ k, s.inputWait = some k ∧ s.engineAction = .awaitInput k) ∨
    (s.lifecycle = .running ∧ s.inputWait = none ∧
      ∃ o, s.openScan = some o ∧ s.engineAction = .scanOn o) ∨
    (s.lifecycle = .running ∧ s.inputWait = none ∧ s.openScan = none ∧
      s.engineAction = .cycle) := by
  unfold State.engineAction
  cases s.lifecycle <;> cases s.inputWait <;> cases s.openScan <;> simp

end Sys2Proof.Machine
end

