-- ==== Sys2Proof/Laws/Run.lean ====
section
/-! SUPPORT. Runs of several steps, and what a step does by the engine's action. -/

namespace Sys2Proof.Machine

/-- A run of one more step is a step and the rest of the run. -/
theorem core_run_step (n : Nat) (s t : State) (h : step s = .next t) :
    Host.Core.run Sys2Proof.core (n + 1) s = Host.Core.run Sys2Proof.core n t := by
  have h' : Sys2Proof.core.step s = .next t := h
  simp only [Host.Core.run, h']

/-- A state that a step leaves as it is stays as it is in every run. -/
theorem core_run_fixed (s : State) (h : step s = .next s) (n : Nat) :
    Host.Core.run Sys2Proof.core n s = .next s := by
  induction n with
  | zero => rfl
  | succ n ih => rw [core_run_step n s s h, ih]

/-- The engine runs an instruction cycle exactly in the fetching states. -/
theorem State.engineAction_cycle_iff (s : State) : s.engineAction = .cycle ↔ s.Fetching := by
  unfold State.engineAction State.Fetching
  cases s.lifecycle <;> cases s.inputWait <;> cases s.openScan <;> simp

/-- The engine tries a read again exactly in the waiting states. -/
theorem State.engineAction_awaitInput_iff (s : State) (k : ConsoleRead) :
    s.engineAction = .awaitInput k ↔ s.lifecycle = .running ∧ s.inputWait = some k := by
  unfold State.engineAction
  cases s.lifecycle <;> cases s.inputWait <;> cases s.openScan <;> simp

/-- The engine carries on a scan exactly in the scanning states. -/
theorem State.engineAction_scanOn_iff (s : State) (o : OpenScan) :
    s.engineAction = .scanOn o ↔
      s.lifecycle = .running ∧ s.inputWait = none ∧ s.openScan = some o := by
  unfold State.engineAction
  cases s.lifecycle <;> cases s.inputWait <;> cases s.openScan <;> simp

/-- The engine rests exactly outside Running. -/
theorem State.engineAction_rest_iff (s : State) :
    s.engineAction = .rest ↔ s.lifecycle ≠ .running := by
  unfold State.engineAction
  cases s.lifecycle <;> cases s.inputWait <;> cases s.openScan <;> simp

/-- No handler writes the lifecycle state: the loop test does (spec/30_encoding.md R82). -/
theorem exec_lifecycle (i : Instr) (s t : State) (h : exec i s = .next t) :
    t.lifecycle = s.lifecycle := by
  cases i <;> cases h <;> simp
  split <;> simp

end Sys2Proof.Machine
end

