-- ==== Sys2Proof/Laws/Scan.lean ====
section
/-! SUPPORT. What a scan of memory reads (spec/43_trap_system.md R145, R147). -/

namespace Sys2Proof.Machine

/-- The cell `k + 1` after `a` is the cell `k` after `a + 1`. -/
theorem addr_succ (a : Word) (k : Nat) :
    a + BitVec.ofNat 16 (k + 1) = a + 1 + BitVec.ofNat 16 k := by
  apply BitVec.eq_of_toNat_eq
  simp [BitVec.toNat_add]
  omega

/-- One cell of a scan that goes on. -/
theorem scanBytes_go (r : ScanRoutine) (m : Memory) (fuel : Nat) (a : Word)
    (h : (scanCell r (m.read a)).2 = false) :
    scanBytes r m (fuel + 1) a =
      (scanBytes r m fuel (a + 1)).map ((scanCell r (m.read a)).1 ++ ·) := by
  rw [scanBytes]
  split
  · simp_all
  · simp_all

/-- One cell of a scan that ends there. -/
theorem scanBytes_stop (r : ScanRoutine) (m : Memory) (fuel : Nat) (a : Word)
    (h : (scanCell r (m.read a)).2 = true) :
    scanBytes r m (fuel + 1) a = some (scanCell r (m.read a)).1 := by
  rw [scanBytes]
  split
  · simp_all
  · simp_all

/-- PUTS ends exactly at a zero cell (R145). -/
theorem scanCell_puts_end (w : Word) : (scanCell .puts w).2 = true ↔ w = 0x0000#16 := by
  by_cases h : w = 0x0000#16 <;> simp [scanCell, h]

/-- PUTSP ends exactly in a cell with a zero byte (R147). -/
theorem scanCell_putsp_end (w : Word) :
    (scanCell .putsp w).2 = true ↔ lo8 w = 0x00#8 ∨ hi8 w = 0x00#8 := by
  unfold scanCell
  by_cases h1 : lo8 w = 0x00#8
  · simp [h1]
  · by_cases h2 : hi8 w = 0x00#8 <;> simp [h1, h2]

end Sys2Proof.Machine
end

