-- ==== Sys2Proof/Laws/Load.lean ====
section
/-! SUPPORT. What loading puts in memory, and what a boot answers (spec/20_memory.md R50,
spec/70_reset_and_hazards.md R203, R204). -/

namespace Sys2Proof.Machine

/-- A cell that no word of an image goes to reads as before the load. -/
theorem Memory.read_writeWords_uncovered (ws : List Word) (m : Memory) (a b : Word)
    (h : ∀ k, k < ws.length → a + BitVec.ofNat 16 k ≠ b) :
    (m.writeWords a ws).read b = m.read b := by
  induction ws generalizing m a with
  | nil => rfl
  | cons w ws ih =>
    have h0 : b ≠ a := by simpa using (h 0 (by simp)).symm
    have hs : ∀ k, k < ws.length → a + 1 + BitVec.ofNat 16 k ≠ b := fun k hk =>
      addr_succ a k ▸ h (k + 1) (by simpa using hk)
    rw [Memory.writeWords, ih _ _ hs, Memory.read_write_other _ _ _ _ h0]

/-- The last word of an image that goes to a cell is what the cell reads as after the load. -/
theorem Memory.read_writeWords_last (ws : List Word) (m : Memory) (a b : Word) (k : Nat) (w : Word)
    (hw : ws[k]? = some w) (hk : a + BitVec.ofNat 16 k = b)
    (hl : ∀ j, k < j → j < ws.length → a + BitVec.ofNat 16 j ≠ b) :
    (m.writeWords a ws).read b = w := by
  induction ws generalizing m a k with
  | nil => simp at hw
  | cons v ws ih =>
    have hs : ∀ j, k < j + 1 → j < ws.length → a + 1 + BitVec.ofNat 16 j ≠ b := fun j hkj hj =>
      addr_succ a j ▸ hl (j + 1) hkj (by simpa using hj)
    cases k with
    | zero =>
      have hv : v = w := by simpa using hw
      have hab : a = b := by simpa using hk
      rw [Memory.writeWords, Memory.read_writeWords_uncovered _ _ _ _ fun j => hs j (by omega),
        hab, Memory.read_write_same, hv]
    | succ k =>
      exact ih _ _ k (by simpa using hw) (addr_succ a k ▸ hk) fun j hkj => hs j (by omega)

/-- Loading keeps the canonical form. -/
theorem Memory.wf_writeWords (ws : List Word) (m : Memory) (a : Word) (h : m.wf) :
    (m.writeWords a ws).wf := by
  induction ws generalizing m a with
  | nil => exact h
  | cons w ws ih => exact ih _ _ (Memory.wf_write m a w h)

/-- In Idle every list of images loads, in order, and changes memory alone. -/
theorem State.hostLoadAll_idle (is : List Image) (s : State) (h : s.lifecycle = .idle) :
    s.hostLoadAll is =
      some { s with mem := is.foldl (fun m i => m.writeWords i.origin i.words) s.mem } := by
  induction is generalizing s with
  | nil => rfl
  | cons i is ih =>
    have hl : s.hostLoad i = some { s with mem := s.mem.writeWords i.origin i.words } := if_pos h
    rw [State.hostLoadAll, hl, Option.bind_some]
    exact ih { s with mem := s.mem.writeWords i.origin i.words } h

/-- Every boot answers a state: the constructed one with the images loaded, PC set, and started. -/
theorem boot_eq (images : List Image) (startPc : Word) :
    boot images startPc = some
      { State.reset with
        mem := images.foldl (fun m i => m.writeWords i.origin i.words) []
        pc := startPc
        running := true
        lifecycle := .running } := by
  rw [boot, State.hostLoadAll_idle _ _ rfl]
  rfl

end Sys2Proof.Machine
end

