-- ==== Sys2Proof/Laws/PerInstr.lean ====
section
/-! SUPPORT. Facts proved for every instruction, one lemma per constructor. -/

namespace Sys2Proof.Laws

/-- The opcode of spec/30_encoding.md R62's map. -/
def opcodeOf : Instr → BitVec 4
  | .br .. => 0b0000#4
  | .addReg .. => 0b0001#4
  | .addImm .. => 0b0001#4
  | .ld .. => 0b0010#4
  | .st .. => 0b0011#4
  | .jsr .. => 0b0100#4
  | .jsrr .. => 0b0100#4
  | .andReg .. => 0b0101#4
  | .andImm .. => 0b0101#4
  | .ldr .. => 0b0110#4
  | .str .. => 0b0111#4
  | .rti => 0b1000#4
  | .notReg .. => 0b1001#4
  | .ldi .. => 0b1010#4
  | .sti .. => 0b1011#4
  | .jmp .. => 0b1100#4
  | .res => 0b1101#4
  | .lea .. => 0b1110#4
  | .trap .. => 0b1111#4

/-- The encoder puts the opcode of R62's map in bits 15..12, and R63's canonical values in the bits
the format ignores. -/
def OpcodeField.Statement (i : Instr) : Prop :=
  (encode i).extractLsb' 12 4 = opcodeOf i ∧ canonicalWord (encode i) = true

namespace OpcodeField

theorem br (nzp : BitVec 3) (off : BitVec 9) : Statement (.br nzp off) := by
  constructor
  · ext j hj
    simp only [encode, encodePc9, opcodeOf]
    interval_cases j <;> simp
  · simp [canonicalWord, encode, encodePc9]

theorem addReg (dr : Reg) (sr1 : Reg) (sr2 : Reg) : Statement (.addReg dr sr1 sr2) := by
  constructor
  · ext j hj
    simp only [encode, encodeOpr, opcodeOf]
    interval_cases j <;> simp
  · have h0 : (encode (.addReg dr sr1 sr2)).extractLsb' 3 2 = 0b00#2 := by
      ext j hj
      simp only [encode, encodeOpr]
      interval_cases j <;> simp
    simp only [canonicalWord, h0]
    simp [encode, encodeOpr]

theorem addImm (dr : Reg) (sr1 : Reg) (imm : BitVec 5) : Statement (.addImm dr sr1 imm) := by
  constructor
  · ext j hj
    simp only [encode, encodeOpi, opcodeOf]
    interval_cases j <;> simp
  · simp [canonicalWord, encode, encodeOpi]

theorem ld (dr : Reg) (off : BitVec 9) : Statement (.ld dr off) := by
  constructor
  · ext j hj
    simp only [encode, encodePc9, opcodeOf]
    interval_cases j <;> simp
  · simp [canonicalWord, encode, encodePc9]

theorem st (sr : Reg) (off : BitVec 9) : Statement (.st sr off) := by
  constructor
  · ext j hj
    simp only [encode, encodePc9, opcodeOf]
    interval_cases j <;> simp
  · simp [canonicalWord, encode, encodePc9]

theorem jsr (off : BitVec 11) : Statement (.jsr off) := by
  constructor
  · ext j hj
    simp only [encode, encodeJsr, opcodeOf]
    interval_cases j <;> simp
  · simp [canonicalWord, encode, encodeJsr]

theorem jsrr (base : Reg) : Statement (.jsrr base) := by
  constructor
  · ext j hj
    simp only [encode, encodeBase, opcodeOf]
    interval_cases j <;> simp
  · have h0 : (encode (.jsrr base)).extractLsb' 9 2 = 0b00#2 := by
      ext j hj
      simp only [encode, encodeBase]
      interval_cases j <;> simp
    have h1 : (encode (.jsrr base)).extractLsb' 0 6 = 0b000000#6 := by
      ext j hj
      simp only [encode, encodeBase]
      interval_cases j <;> simp
    simp only [canonicalWord, h0, h1]
    simp [encode, encodeBase]

theorem andReg (dr : Reg) (sr1 : Reg) (sr2 : Reg) : Statement (.andReg dr sr1 sr2) := by
  constructor
  · ext j hj
    simp only [encode, encodeOpr, opcodeOf]
    interval_cases j <;> simp
  · have h0 : (encode (.andReg dr sr1 sr2)).extractLsb' 3 2 = 0b00#2 := by
      ext j hj
      simp only [encode, encodeOpr]
      interval_cases j <;> simp
    simp only [canonicalWord, h0]
    simp [encode, encodeOpr]

theorem andImm (dr : Reg) (sr1 : Reg) (imm : BitVec 5) : Statement (.andImm dr sr1 imm) := by
  constructor
  · ext j hj
    simp only [encode, encodeOpi, opcodeOf]
    interval_cases j <;> simp
  · simp [canonicalWord, encode, encodeOpi]

theorem ldr (dr : Reg) (base : Reg) (off : BitVec 6) : Statement (.ldr dr base off) := by
  constructor
  · ext j hj
    simp only [encode, encodeBase6, opcodeOf]
    interval_cases j <;> simp
  · simp [canonicalWord, encode, encodeBase6]

theorem str (sr : Reg) (base : Reg) (off : BitVec 6) : Statement (.str sr base off) := by
  constructor
  · ext j hj
    simp only [encode, encodeBase6, opcodeOf]
    interval_cases j <;> simp
  · simp [canonicalWord, encode, encodeBase6]

theorem rti : Statement .rti := by
  exact ⟨by decide, by decide⟩

theorem notReg (dr : Reg) (sr : Reg) : Statement (.notReg dr sr) := by
  constructor
  · ext j hj
    simp only [encode, encodeNot, opcodeOf]
    interval_cases j <;> simp
  · have h0 : (encode (.notReg dr sr)).extractLsb' 0 6 = 0b111111#6 := by
      ext j hj
      simp only [encode, encodeNot]
      interval_cases j <;> simp
    simp only [canonicalWord, h0]
    simp [encode, encodeNot]

theorem ldi (dr : Reg) (off : BitVec 9) : Statement (.ldi dr off) := by
  constructor
  · ext j hj
    simp only [encode, encodePc9, opcodeOf]
    interval_cases j <;> simp
  · simp [canonicalWord, encode, encodePc9]

theorem sti (sr : Reg) (off : BitVec 9) : Statement (.sti sr off) := by
  constructor
  · ext j hj
    simp only [encode, encodePc9, opcodeOf]
    interval_cases j <;> simp
  · simp [canonicalWord, encode, encodePc9]

theorem jmp (base : Reg) : Statement (.jmp base) := by
  constructor
  · ext j hj
    simp only [encode, encodeBase, opcodeOf]
    interval_cases j <;> simp
  · have h0 : (encode (.jmp base)).extractLsb' 9 3 = 0b000#3 := by
      ext j hj
      simp only [encode, encodeBase]
      interval_cases j <;> simp
    have h1 : (encode (.jmp base)).extractLsb' 0 6 = 0b000000#6 := by
      ext j hj
      simp only [encode, encodeBase]
      interval_cases j <;> simp
    simp only [canonicalWord, h0, h1]
    simp [encode, encodeBase]

theorem res : Statement .res := by
  exact ⟨by decide, by decide⟩

theorem lea (dr : Reg) (off : BitVec 9) : Statement (.lea dr off) := by
  constructor
  · ext j hj
    simp only [encode, encodePc9, opcodeOf]
    interval_cases j <;> simp
  · simp [canonicalWord, encode, encodePc9]

theorem trap (vect : Byte) : Statement (.trap vect) := by
  constructor
  · ext j hj
    simp only [encode, encodeTrap, opcodeOf]
    interval_cases j <;> simp
  · have h0 : (encode (.trap vect)).extractLsb' 8 4 = 0b0000#4 := by
      ext j hj
      simp only [encode, encodeTrap]
      interval_cases j <;> simp
    simp only [canonicalWord, h0]
    simp [encode, encodeTrap]

end OpcodeField

end Sys2Proof.Laws
end

