-- ==== Sys2Proof/Tests/Slice0.lean ====
section
/-! SUPPORT. The model's own tests. Words are written out from spec/30_encoding.md R63; expected results
are those of spec/95_test_vectors.md, each cited by its id there. The last part shows, for every
statement with hypotheses, a state and operands that meet them. -/

namespace Sys2Proof.Tests

open Sys2Proof.Machine Sys2Proof.Claims

/-! ## Decoding: one word per constructor, bit by bit -/

theorem test_decode_br : decode 0b0000_010_000000101#16 = .br 0b010#3 5#9 := by decide
theorem test_decode_addReg : decode 0b0001_010_001_0_00_001#16 = .addReg .r2 .r1 .r1 := by decide
theorem test_decode_addImm : decode 0b0001_010_001_1_00101#16 = .addImm .r2 .r1 5#5 := by decide
theorem test_decode_ld : decode 0b0010_001_000001001#16 = .ld .r1 9#9 := by decide
theorem test_decode_st : decode 0b0011_001_000000000#16 = .st .r1 0#9 := by decide
theorem test_decode_jsr : decode 0b0100_1_10000000000#16 = .jsr 0x400#11 := by decide
theorem test_decode_jsrr : decode 0b0100_0_00_011_000000#16 = .jsrr .r3 := by decide
theorem test_decode_andReg : decode 0b0101_011_001_0_00_010#16 = .andReg .r3 .r1 .r2 := by decide
theorem test_decode_andImm : decode 0b0101_010_001_1_01111#16 = .andImm .r2 .r1 15#5 := by decide
theorem test_decode_ldr : decode 0b0110_100_011_111111#16 = .ldr .r4 .r3 0b111111#6 := by decide
theorem test_decode_str : decode 0b0111_101_110_011111#16 = .str .r5 .r6 31#6 := by decide
theorem test_decode_rti : decode 0b1000_000000000000#16 = .rti := by decide
theorem test_decode_not : decode 0b1001_100_101_111111#16 = .notReg .r4 .r5 := by decide
theorem test_decode_ldi : decode 0b1010_010_000001000#16 = .ldi .r2 8#9 := by decide
theorem test_decode_sti : decode 0b1011_010_000001000#16 = .sti .r2 8#9 := by decide
theorem test_decode_jmp : decode 0b1100_000_010_000000#16 = .jmp .r2 := by decide
theorem test_decode_res : decode 0b1101_000000000000#16 = .res := by decide
theorem test_decode_lea : decode 0b1110_011_100000000#16 = .lea .r3 0x100#9 := by decide
theorem test_decode_trap : decode 0b1111_0000_00100110#16 = .trap 0x26#8 := by decide

/-- Words whose ignored bits are not canonical (V-ADD-8, V-HALT-2, E9). -/
theorem test_decode_ignored_bits :
    decode 0x1458#16 = .addReg .r2 .r1 .r0 ∧ decode 0xF125#16 = Instr.halt ∧
      decode 0x8FFF#16 = .rti ∧ decode 0xDFFF#16 = .res ∧ decode 0x9940#16 = .notReg .r4 .r5 ∧
      decode 0xCFFF#16 = .ret ∧ decode 0x47FF#16 = .jsrr .r7 := by decide

/-- The spellings of R72, and the all-zero word of R69. -/
theorem test_pseudo_words :
    encode .ret = 0xC1C0#16 ∧ encode .getc = 0xF020#16 ∧ encode .out = 0xF021#16 ∧
      encode .puts = 0xF022#16 ∧ encode .inChar = 0xF023#16 ∧ encode .putsp = 0xF024#16 ∧
      encode .halt = 0xF025#16 ∧ encode .nop = 0x0000#16 := by decide

/-- The host's numbering: the word itself; nothing longer, nothing that does not fit (R60). -/
theorem test_decodeTableWord :
    decodeTableWord 16 0x1441 = some (.addReg .r2 .r1 .r1) ∧
      decodeBits 32 0x1441 = .error .longerThanAWord ∧
      decodeBits 16 0x10000 = .error .valueTooWide := by decide

/-! ## WellFormed: an ill-formed term for each check -/

theorem test_undefined_vectors :
    trapVectorDefined 0x1F#8 = false ∧ trapVectorDefined 0x26#8 = false ∧
      trapVectorDefined 0x20#8 = true ∧ trapVectorDefined 0x25#8 = true := by decide
theorem test_faultFree : Instr.faultFree (.trap 0x26#8) = false ∧ Instr.halt.faultFree = true := by
  decide
/-- One word per format with a wrong ignored bit, and words of formats that ignore none. -/
theorem test_canonicalWord :
    canonicalWord 0x1458#16 = false ∧ canonicalWord 0x564A#16 = false ∧
      canonicalWord 0x9940#16 = false ∧ canonicalWord 0xC3C0#16 = false ∧
      canonicalWord 0xC1C1#16 = false ∧ canonicalWord 0x42C0#16 = false ∧
      canonicalWord 0x40C1#16 = false ∧ canonicalWord 0xF125#16 = false ∧
      canonicalWord 0x8001#16 = false ∧ canonicalWord 0x4FFF#16 = true ∧
      canonicalWord 0x1FFF#16 = true ∧ canonicalWord 0x0FFF#16 = true := by decide

/-! ## One step of each instruction -/

/-- Running at `a`, the word `w` in that cell, everything else as after reset. -/
def cpu (a w : Word) : State := (State.reset.setPc a).withFetchWord 16 w.toNat

/-- The state after one step. -/
def after (s : State) : State :=
  match step s with
  | .next t => t
  | .fault _ => s
  | .refused _ => s

-- V-ADD-1, V-ADD-7
theorem test_addReg : let t := after ((cpu 0x3000 0x1441).setReg .r1 5)
    t.reg .r2 = 0x000A#16 ∧ t.cond = Cond.p := by decide
theorem test_addReg_same : let t := after ((cpu 0x3000 0x16C3).setReg .r3 0x4000)
    t.reg .r3 = 0x8000#16 ∧ t.cond = Cond.n := by decide
-- V-ADD-4, V-ADD-6
theorem test_addImm_wraps : let t := after ((cpu 0x3000 0x1261).setReg .r1 0xFFFF)
    t.reg .r1 = 0x0000#16 ∧ t.cond = Cond.z := by decide
theorem test_addImm_negative : (after ((cpu 0x3000 0x1030).setReg .r0 0x0010)).reg .r0 = 0x0000#16 := by
  decide
-- V-AND-1, V-AND-3, V-AND-4
theorem test_andReg : let t := after (((cpu 0x3000 0x5642).setReg .r1 0xF0F0).setReg .r2 0x3C3C)
    t.reg .r3 = 0x3030#16 ∧ t.cond = Cond.p := by decide
theorem test_andImm_sign : let t := after ((cpu 0x3000 0x5270).setReg .r1 0x8123)
    t.reg .r1 = 0x8120#16 ∧ t.cond = Cond.n := by decide
theorem test_andImm_positive : (after ((cpu 0x3000 0x546F).setReg .r1 0x8123)).reg .r2 = 0x0003#16 := by
  decide
-- V-NOT-1, V-NOT-2
theorem test_not : let t := after ((cpu 0x3000 0x997F).setReg .r5 0x00FF)
    t.reg .r4 = 0xFF00#16 ∧ t.cond = Cond.n := by decide
theorem test_not_zero : (after ((cpu 0x3000 0x993F).setReg .r4 0xFFFF)).cond = Cond.z := by decide
-- V-BR-6, V-BR-3
theorem test_br_wrap : (after ((cpu 0xFFFF 0x0801).setCond Cond.n)).pc = 0x0001#16 := by decide
theorem test_br_reset_cond : (after (cpu 0x3000 0x0FFF)).pc = 0x3001#16 := by decide
-- V-JMP-1, V-JMP-2
theorem test_jmp : (after ((cpu 0x3000 0xC080).setReg .r2 0x4000)).pc = 0x4000#16 := by decide
theorem test_ret : (after ((cpu 0x3005 0xC1C0).setReg .r7 0x3002)).pc = 0x3002#16 := by decide
-- V-JSR-2, V-JSR-3
theorem test_jsr_back : let t := after (cpu 0x3000 0x4C00)
    t.reg .r7 = 0x3001#16 ∧ t.pc = 0x2C01#16 := by decide
theorem test_jsr_wrap : (after (cpu 0xFF00 0x4BFF)).pc = 0x0300#16 := by decide
-- V-JSRR-1, V-JSRR-2
theorem test_jsrr : let t := after ((cpu 0x3000 0x40C0).setReg .r3 0x5000)
    t.reg .r7 = 0x3001#16 ∧ t.pc = 0x5000#16 := by decide
theorem test_jsrr_r7 : (after ((cpu 0x3000 0x41C0).setReg .r7 0x5000)).pc = 0x3001#16 := by decide
-- V-LD-2, V-LD-4
theorem test_ld_own_word : (after (cpu 0x3000 0x23FF)).reg .r1 = 0x23FF#16 := by decide
theorem test_ld_wrap : let t := after ((cpu 0xFFFF 0x2201).memWrite 0x0001 0x8001)
    t.reg .r1 = 0x8001#16 ∧ t.pc = 0x0000#16 := by decide
-- V-LDI-1, V-LDI-2
theorem test_ldi :
    (after (((cpu 0x3002 0xA408).memWrite 0x300B 0x300C).memWrite 0x300C 0x1234)).reg .r2 =
      0x1234#16 := by decide
theorem test_ldi_self : (after ((cpu 0x3000 0xA400).memWrite 0x3001 0x3001)).reg .r2 = 0x3001#16 := by
  decide
-- V-LDR-2, V-LDR-3
theorem test_ldr_wrap : (after ((cpu 0x3000 0x68FF).memWrite 0xFFFF 0x0042)).reg .r4 = 0x0042#16 := by
  decide
theorem test_ldr_same : let t := after ((cpu 0x3000 0x66DF).setReg .r3 0x4000)
    t.reg .r3 = 0x0000#16 ∧ t.cond = Cond.z := by decide
-- V-LEA-3, V-LEA-4
theorem test_lea_sign : let t := after (cpu 0x7FFF 0xE600)
    t.reg .r3 = 0x8000#16 ∧ t.cond = Cond.n := by decide
theorem test_lea_back : (after (cpu 0x8000 0xE700)).reg .r3 = 0x7F01#16 := by decide
-- V-ST-1, V-ST-2
theorem test_st : (after ((cpu 0x3005 0x3001).setReg .r0 0x000F)).memRead 0x3007 = 0x000F#16 := by decide
theorem test_st_cond : (after ((cpu 0x3000 0x3200).setCond Cond.z)).cond = Cond.z := by decide
-- V-STI-1, V-STI-2
theorem test_sti :
    (after (((cpu 0x3005 0xB408).setReg .r2 0x1234).memWrite 0x300E 0x300F)).memRead 0x300F =
      0x1234#16 := by decide
theorem test_sti_self :
    (after (((cpu 0x3000 0xB400).setReg .r2 0xABCD).memWrite 0x3001 0x3001)).memRead 0x3001 =
      0xABCD#16 := by decide
-- V-STR-2, V-STR-3
theorem test_str_wrap :
    (after (((cpu 0x3000 0x7B9F).setReg .r5 0x0055).setReg .r6 0xFFF0)).memRead 0x000F =
      0x0055#16 := by decide
theorem test_str_same : (after ((cpu 0x3000 0x7DA0).setReg .r6 0x4020)).memRead 0x4000 = 0x4020#16 := by
  decide
-- V-RTI-1, V-RES-1
theorem test_rti : let t := after ((cpu 0x3000 0x8000).setReg .r7 2)
    t.reg .r7 = 2#16 ∧ t.pc = 0x3001#16 := by decide
theorem test_res : let t := after ((cpu 0x3000 0xD000).setReg .r7 2)
    t.reg .r7 = 2#16 ∧ t.pc = 0x3001#16 := by decide

/-! ## The trap routines -/

-- V-GETC-2, V-GETC-3
theorem test_getc : let t := after ((cpu 0x3000 0xF020).setConsoleIn [0xE9])
    t.reg .r0 = 0x00E9#16 ∧ t.consoleOut = [] := by decide
theorem test_getc_blocks : let t := after (cpu 0x3000 0xF020)
    t.inputWait = some .noEcho ∧ t.reg .r7 = 0x3001#16 := by decide
-- V-OUT-1, V-OUT-2
theorem test_out : (after ((cpu 0x3000 0xF021).setReg .r0 0x1241)).consoleOut = [0x41#8] := by decide
theorem test_out_zero : (after (cpu 0x3000 0xF021)).consoleOut = [0x00#8] := by decide
-- V-PUTS-2, V-PUTS-4
theorem test_puts_low_bytes :
    (after ((((cpu 0x3000 0xF022).setReg .r0 0x4000).memWrite 0x4000 0x4100).memWrite 0x4001
      0x6948)).consoleOut = [0x00#8, 0x48#8] := by decide
theorem test_puts_wrap :
    (after ((((cpu 0x3000 0xF022).setReg .r0 0xFFFF).memWrite 0xFFFF 0x0041).memWrite 0x0000
      0x0042)).consoleOut = [0x41#8, 0x42#8] := by decide
-- V-IN-1, V-IN-2
theorem test_in : (after ((cpu 0x3000 0xF023).setConsoleIn [0x79])).consoleOut =
    Config.inPrompt ++ [0x79#8] := rfl
theorem test_in_blocks : let t := after (cpu 0x3000 0xF023)
    t.consoleOut = Config.inPrompt ∧ t.inputWait = some .echo := ⟨rfl, rfl⟩
-- V-PUTSP-3, V-PUTSP-4
theorem test_putsp_high_zero :
    (after ((((cpu 0x3000 0xF024).setReg .r0 0x4000).memWrite 0x4000 0x0041).memWrite 0x4001
      0x4242)).consoleOut = [0x41#8] := by decide
theorem test_putsp_odd :
    (after (((((cpu 0x3000 0xF024).setReg .r0 0x4000).memWrite 0x4000 0x6F79).memWrite 0x4001
      0x6B75).memWrite 0x4002 0x0021)).consoleOut =
      [0x79#8, 0x6F#8, 0x75#8, 0x6B#8, 0x21#8] := by decide
-- V-HALT-1
theorem test_halt : let t := after (cpu 0x3006 0xF025)
    t.lifecycle = .halted ∧ t.reg .r7 = 0x3007#16 ∧ t.consoleOut = Config.haltNotice :=
  ⟨rfl, rfl, rfl⟩
-- V-TRAP-1, V-TRAP-4
theorem test_trap_undefined : let t := after (cpu 0x3006 0xF026)
    t.faultStatus = some (.undefinedTrapVector 0x26#8 0x3006#16) ∧ t.lifecycle = .halted ∧
      t.faultCode = 1 := by decide
theorem test_trap_ff : (after (cpu 0x3000 0xF0FF)).faultStatus =
    some (.undefinedTrapVector 0xFF#8 0x3000#16) := by decide

/-! ## Loading -/

-- spec/20_memory.md R50: big-endian origin and words.
theorem test_image : imageOfBytes [0x30, 0x00, 0xE0, 0x02] =
    some { origin := 0x3000#16, words := [0xE002#16] } := by decide
theorem test_image_odd : imageOfBytes [0x30, 0x00, 0xE0] = none := by decide
-- spec/30_encoding.md R72.
theorem test_stringz : cellsStringz [0x48, 0x69] = [0x0048#16, 0x0069#16, 0x0000#16] := by decide

/-! ## Hypotheses that are met

One theorem `wit_<obligation>` per statement with hypotheses. -/

theorem wit_AddRegisterWrapsAndSetsFlags : 0x1458#16 &&& 0xF020#16 = 0x1000#16 := by decide
theorem wit_AddImmediateSignExtendsAndSetsFlags : 0x1465#16 &&& 0xF020#16 = 0x1020#16 := by decide
theorem wit_AndRegisterIsBitwise : 0x5642#16 &&& 0xF020#16 = 0x5000#16 := by decide
theorem wit_AndImmediateIsBitwise : 0x5020#16 &&& 0xF020#16 = 0x5020#16 := by decide
theorem wit_NotComplements : 0x997F#16 &&& 0xF000#16 = 0x9000#16 := by decide

/-- A shared flag, and none. -/
theorem wit_BranchTakenExactlyOnSharedFlag :
    0x0405#16 &&& 0xF000#16 = 0x0000#16 ∧
    (∃ j, (0b010#3).getLsbD j = true ∧ (State.reset.setCond Cond.z).cond.getLsbD j = true) ∧
    ¬ ∃ j, (0b111#3).getLsbD j = true ∧ State.reset.cond.getLsbD j = true :=
  ⟨by decide, ⟨1, by decide⟩, fun ⟨j, _, h⟩ => by simp [State.reset] at h⟩

theorem wit_JumpGoesToTheBaseRegister : 0xCFFF#16 &&& 0xF000#16 = 0xC000#16 := by decide
theorem wit_JsrLinksAndJumpsRelative : 0x4805#16 &&& 0xF800#16 = 0x4800#16 := by decide
theorem wit_JsrrReadsTheBaseAfterLinking :
    0x40C0#16 &&& 0xF800#16 = 0x4000#16 ∧ Reg.r3 ≠ Reg.r7 ∧ Reg.r7 = Reg.r7 := by decide
theorem wit_LdLoadsPcRelative : 0x2209#16 &&& 0xF000#16 = 0x2000#16 := by decide
theorem wit_LdiLoadsThroughThePointer : 0xA408#16 &&& 0xF000#16 = 0xA000#16 := by decide
theorem wit_LdrLoadsFromBasePlusOffset : 0x68FF#16 &&& 0xF000#16 = 0x6000#16 := by decide
theorem wit_LeaComputesWithoutMemory : 0xE002#16 &&& 0xF000#16 = 0xE000#16 := by decide
/-- The word, the cell stored to, and another cell. -/
theorem wit_StStoresPcRelative : 0x3001#16 &&& 0xF000#16 = 0x3000#16 ∧
    (cpu 0x3005 0x3001).fetch.pcRelative9 1#9 = 0x3007#16 ∧ 0x3006#16 ≠ 0x3007#16 := by decide
theorem wit_StiStoresThroughThePointer : 0xB408#16 &&& 0xF000#16 = 0xB000#16 ∧
    ((cpu 0x3000 0xB400).memWrite 0x3001 0x3001).fetch.indirect 0#9 = 0x3001#16 ∧
    0x3000#16 ≠ 0x3001#16 := by decide
theorem wit_StrStoresAtBasePlusOffset : 0x72C0#16 &&& 0xF000#16 = 0x7000#16 ∧
    ((cpu 0x3000 0x7B9F).setReg .r6 0xFFF0).fetch.baseOffset .r6 31#6 = 0x000F#16 ∧
    0x0010#16 ≠ 0x000F#16 := by decide

theorem wit_RtiIsANoOp : let s := cpu 0x3000 0x8FFF
    0x8FFF#16 &&& 0xF000#16 = 0x8000#16 ∧ s.Fetching ∧ s.running = true ∧ s.current = .rti := by
  decide
theorem wit_ResIsANoOp : let s := cpu 0x3000 0xD000
    0xD000#16 &&& 0xF000#16 = 0xD000#16 ∧ s.Fetching ∧ s.running = true ∧ s.current = .res := by
  decide
/-- Vectors that meet the first pair, the second, and both. -/
theorem wit_TrapLinksAndKeepsPcCondAndMemory : 0xF025#16 &&& 0xF000#16 = 0xF000#16 ∧
    (0x22#8 ≠ 0x20#8 ∧ 0x22#8 ≠ 0x23#8) ∧ (0x20#8 ≠ 0x22#8 ∧ 0x20#8 ≠ 0x24#8) ∧
    (0x25#8 ≠ 0x20#8 ∧ 0x25#8 ≠ 0x23#8 ∧ 0x25#8 ≠ 0x22#8 ∧ 0x25#8 ≠ 0x24#8) := by decide

theorem wit_GetcReadsOneCharacterWithoutEcho :
    ((cpu 0x3000 0xF020).setConsoleIn [0xE9, 0x41]).consoleIn = 0xE9#8 :: [0x41#8] := by decide
theorem wit_InPromptsAndReadsWithEcho :
    ((cpu 0x3000 0xF023).setConsoleIn [0x79]).consoleIn = 0x79#8 :: [] := by decide
theorem wit_ReadWithoutInputBlocks : (cpu 0x3000 0xF020).consoleIn = [] := by decide

/-- Every cell of memory holds 0x4141: neither PUTS nor PUTSP ends. -/
def fullMemory : Memory := (List.range 65536).map fun k => (k, 0x4141#16)

theorem lookup_map_const (w : Word) (k : Nat) (l : List Nat) (h : k ∈ l) :
    Memory.lookup (l.map fun j => (j, w)) k = w := by
  induction l with
  | nil => simp at h
  | cons j l ih =>
    by_cases hj : j = k
    · simp [Memory.lookup, hj]
    · have hk : k ∈ l := by simpa [Ne.symm hj] using h
      simpa [Memory.lookup, hj] using ih hk

theorem fullMemory_read (a : Word) : fullMemory.read a = 0x4141#16 :=
  lookup_map_const _ _ _ (by simpa using a.isLt)

/-- The machine before a TRAP, R0 = 0x4000, with a memory. -/
def cpuWith (m : Memory) : State := { (cpu 0x3000 0xF022).setReg .r0 0x4000 with mem := m }

theorem cpuWith_memRead (m : Memory) (a : Word) : (cpuWith m).memRead a = m.read a := rfl

/-- The empty string, two cells across the top of memory, and memory without a zero cell. -/
theorem wit_PutsWritesUpToTheZeroCell :
    cellFrom (cpu 0x3000 0xF022) 0x4000 0 = 0x0000#16 ∧
    (let s := ((cpu 0x3000 0xF022).memWrite 0xFFFF 0x0041).memWrite 0x0000 0x0042
     (∀ k, k < 2 → cellFrom s 0xFFFF k ≠ 0x0000#16) ∧ cellFrom s 0xFFFF 2 = 0x0000#16) ∧
    ((cpuWith fullMemory).lifecycle = .running ∧ (cpuWith fullMemory).inputWait = none ∧
      ∀ a, (cpuWith fullMemory).memRead a ≠ 0x0000#16) := by
  refine ⟨by decide, by decide, rfl, rfl, fun a => ?_⟩
  rw [cpuWith_memRead, fullMemory_read]
  decide

/-- The end at a low byte, the end at a high byte after a whole cell, and memory without a zero byte. -/
theorem wit_PutspWritesUpToTheZeroByte :
    (let s := (cpu 0x3000 0xF024).memWrite 0x4000 0x4100
     lo8 (cellFrom s 0x4000 0) = 0x00#8) ∧
    (let s := ((cpu 0x3000 0xF024).memWrite 0x4000 0x6948).memWrite 0x4001 0x0021
     (∀ k, k < 1 → lo8 (cellFrom s 0x4000 k) ≠ 0x00#8 ∧ hi8 (cellFrom s 0x4000 k) ≠ 0x00#8) ∧
      lo8 (cellFrom s 0x4000 1) ≠ 0x00#8 ∧ hi8 (cellFrom s 0x4000 1) = 0x00#8) ∧
    ((cpuWith fullMemory).lifecycle = .running ∧ (cpuWith fullMemory).inputWait = none ∧
      ∀ a, lo8 ((cpuWith fullMemory).memRead a) ≠ 0x00#8 ∧ hi8 ((cpuWith fullMemory).memRead a) ≠ 0x00#8) := by
  refine ⟨by decide, by decide, rfl, rfl, fun a => ?_⟩
  rw [cpuWith_memRead, fullMemory_read]
  decide

theorem wit_HaltWritesTheNoticeAndEndsTheRun : let s := cpu 0x3006 0xF025
    s.Fetching ∧ s.current = Instr.halt := by decide
/-- Both ranges at both of their ends, and a cycle. -/
theorem wit_UndefinedVectorRecordsThePreciseFault :
    ((0x00#8).toNat < 0x20 ∧ (0x1F#8).toNat < 0x20 ∧ 0x25 < (0x26#8).toNat ∧
      0x25 < (0xFF#8).toNat) ∧
    (cpu 0x3006 0xF026).Fetching ∧ (cpu 0x3006 0xF026).current = .trap 0x26#8 ∧
    step (cpu 0x3006 0xF026) = .next (after (cpu 0x3006 0xF026)) :=
  ⟨by decide, by decide, by decide, rfl⟩

/-- For each clause a word of the format and another that differs in ignored bits only. -/
theorem wit_IgnoredBitsDoNotMatter :
    (0x1440#16 &&& 0xF020#16 = 0x1000#16 ∧ 0x1440#16 &&& 0xFFE7#16 = 0x1458#16 &&& 0xFFE7#16) ∧
    (0x5642#16 &&& 0xF020#16 = 0x5000#16 ∧ 0x5642#16 &&& 0xFFE7#16 = 0x565A#16 &&& 0xFFE7#16) ∧
    (0x997F#16 &&& 0xF000#16 = 0x9000#16 ∧ 0x997F#16 &&& 0xFFC0#16 = 0x9940#16 &&& 0xFFC0#16) ∧
    (0xC1C0#16 &&& 0xF000#16 = 0xC000#16 ∧ 0xC1C0#16 &&& 0xF1C0#16 = 0xCFFF#16 &&& 0xF1C0#16) ∧
    (0x40C0#16 &&& 0xF800#16 = 0x4000#16 ∧ 0x40C0#16 &&& 0xF9C0#16 = 0x46FF#16 &&& 0xF9C0#16) ∧
    (0xF025#16 &&& 0xF000#16 = 0xF000#16 ∧ 0xF025#16 &&& 0xF0FF#16 = 0xFF25#16 &&& 0xF0FF#16) ∧
    (0x8000#16 &&& 0xF000#16 = 0x8000#16 ∧ 0x8000#16 &&& 0xF000#16 = 0x8FFF#16 &&& 0xF000#16) ∧
    (0xD000#16 &&& 0xF000#16 = 0xD000#16 ∧ 0xD000#16 &&& 0xF000#16 = 0xDFFF#16 &&& 0xF000#16) := by
  decide
theorem wit_DecodeOfEncodeIsTheInstruction : Instr.wellFormed (.trap 0x26#8) = true := by decide
theorem wit_EncodeOfDecodeIsTheCanonicalWord :
    (canonicalWord 0x997F#16 = true ∧ field 0x997F#16 15 12 ≠ 13) ∧
    canonicalWord 0xFFFF#16 = false := by decide

/-- Both ends of the width, each sign bit. -/
theorem wit_SignExtensionKeepsTheValue :
    ((0#1).getLsbD 0 = false ∧ (1#1).getLsbD 0 = true) ∧
    ((0x7FFF#16).getLsbD 15 = false ∧ (0x8000#16).getLsbD 15 = true) := by decide

/-- A cycle that leaves the machine running, and one that does not. -/
theorem wit_StepRunsTheDecodedInstruction :
    (let s := cpu 0x3000 0x1441
     s.Fetching ∧ decode (s.memRead s.pc) = .addReg .r2 .r1 .r1 ∧ (after s).running = true) ∧
    (let s := cpu 0x3000 0xF026
     s.Fetching ∧ decode (s.memRead s.pc) = .trap 0x26#8 ∧ (after s).running = false) := by decide
theorem wit_HaltedIsTerminal : (after (cpu 0x3000 0xF026)).lifecycle = .halted := by decide
theorem wit_StartRunsAnIdleMachine : (State.reset.setPc 0x3000).lifecycle = .idle ∧
    (cpu 0x3000 0x1441).lifecycle ≠ .idle ∧
    (after (cpu 0x3000 0xF026)).lifecycle ≠ .idle := by decide
/-- Each of the two reads. -/
theorem wit_InputWaitEndsWithTheNextCharacter :
    (let s := after (cpu 0x3000 0xF020)
     s.lifecycle = .running ∧ s.inputWait = some .noEcho ∧ s.consoleIn = []) ∧
    (let s := after (cpu 0x3000 0xF023)
     s.lifecycle = .running ∧ s.inputWait = some .echo ∧ s.consoleIn = []) :=
  ⟨by decide, rfl, rfl, rfl⟩
theorem wit_StoreIsSeenByTheNextFetch : let s := cpu 0x3000 0x3200
    s.Fetching ∧ s.running = true ∧ s.current = .st .r1 0#9 := by decide

/-- A written register of each kind: a result, a link, a character read at once, and one read after a
wait. -/
theorem wit_RegistersHaveOnlyTheListedWriters :
    (let s := (cpu 0x3000 0x1441).setReg .r1 5
     step s = .next (after s) ∧ (after s).reg .r2 ≠ s.reg .r2) ∧
    (let s := cpu 0x3000 0x4805
     step s = .next (after s) ∧ (after s).reg .r7 ≠ s.reg .r7) ∧
    (let s := (cpu 0x3000 0xF020).setConsoleIn [0x41]
     step s = .next (after s) ∧ (after s).reg .r0 ≠ s.reg .r0) ∧
    (let s := (after (cpu 0x3000 0xF020)).consoleSupply [0x41]
     step s = .next (after s) ∧ (after s).reg .r0 ≠ s.reg .r0) :=
  ⟨⟨rfl, by decide⟩, ⟨rfl, by decide⟩, ⟨rfl, by decide⟩, rfl, by decide⟩
/-- A step that changes COND, by an instruction with a result register; an instruction that is no BR. -/
theorem wit_CondHasOnlyTheListedWritersAndReader : let s := (cpu 0x3000 0x1441).setReg .r1 5
    step s = .next (after s) ∧ (after s).cond ≠ s.cond ∧ s.Fetching ∧
      resultReg s.current = some .r2 ∧ ∀ nzp off, s.current ≠ .br nzp off :=
  ⟨rfl, by decide, by decide, by decide, fun _ _ h => by cases h⟩
/-- A step of each store that changes a cell. -/
theorem wit_MemoryHasOnlyTheStoresAsWriters :
    (let s := (cpu 0x3005 0x3001).setReg .r0 0x000F
     step s = .next (after s) ∧ (after s).memRead 0x3007 ≠ s.memRead 0x3007) ∧
    (let s := ((cpu 0x3000 0xB400).setReg .r2 0xABCD).memWrite 0x3001 0x3001
     step s = .next (after s) ∧ (after s).memRead 0x3001 ≠ s.memRead 0x3001) ∧
    (let s := (cpu 0x3000 0x7DA0).setReg .r6 0x4020
     step s = .next (after s) ∧ (after s).memRead 0x4000 ≠ s.memRead 0x4000) :=
  ⟨⟨rfl, by decide⟩, ⟨rfl, by decide⟩, rfl, by decide⟩

/-- Running at 0x3006 with one word in memory is a state with the invariant. -/
theorem cpu_inv (w : Word) (hw : w ≠ 0x0000#16) : (cpu 0x3006 w).Inv := by
  have hb : BitVec.ofNat 16 (w.toNat % 65536) = w := by
    apply BitVec.eq_of_toNat_eq
    simpa using w.isLt
  have hm : (cpu 0x3006 w).mem = [(0x3006, w)] := by
    simp [cpu, State.withFetchWord, State.memWrite, State.setPc, State.setRunning,
      State.setLifecycle, State.setInputWait, State.setOpenScan, State.reset, Memory.write,
      Memory.erase, Memory.insert, Memory.unwritten, hb, hw]
  constructor
  · rw [hm]; exact ⟨by simp, by simp [Memory.unwritten, hw]⟩
  · exact .inl rfl
  · exact ⟨fun _ => rfl, fun _ => rfl⟩
  · exact fun h => absurd rfl h
  · intro v a h; cases h
  · intro k h; cases h
  · intro o h; cases h
  · intro o h; cases h
  · intro h
    rcases h with h | h | h
    · cases h
    · exact absurd rfl h
    · exact absurd rfl h
  · exact Nat.le_refl 0

/-- HALT, an undefined vector at each end of its two ranges, and an instruction that goes on. -/
theorem wit_RunEndsInExactlyTwoWays :
    (let s := cpu 0x3006 0xF025
     s.Inv ∧ s.lifecycle = .running ∧ step s = .next (after s) ∧ s.Fetching ∧
      s.current = Instr.halt) ∧
    (let s := cpu 0x3006 0xF026
     s.Inv ∧ s.lifecycle = .running ∧ step s = .next (after s) ∧ s.Fetching ∧
      trapVectorDefined 0x26#8 = false ∧ s.current = .trap 0x26#8) ∧
    (trapVectorDefined 0x00#8 = false ∧ trapVectorDefined 0x1F#8 = false ∧
      trapVectorDefined 0xFF#8 = false) ∧
    (let s := cpu 0x3006 0x1441
     s.Inv ∧ s.lifecycle = .running ∧ step s = .next (after s)) :=
  ⟨⟨cpu_inv _ (by decide), rfl, rfl, by decide, by decide⟩,
    ⟨cpu_inv _ (by decide), rfl, rfl, by decide, by decide, by decide⟩, by decide,
    cpu_inv _ (by decide), rfl, rfl⟩

/-- The state after an undefined vector has the invariant, with its record. -/
theorem faulted_inv : (after (cpu 0x3006 0xF026)).Inv := by
  constructor
  · decide
  · decide
  · decide
  · intro _; decide
  · intro v a h
    have h' : some (FaultRecord.undefinedTrapVector 0x26#8 0x3006#16) =
        some (.undefinedTrapVector v a) := h
    cases h'
    decide
  · intro k h; cases h
  · intro o h; cases h
  · intro o h; cases h
  · intro _; decide
  · exact Nat.le_refl 0

/-- A step that writes the record, and one from a state that holds it. -/
theorem wit_FaultRecordIsWrittenOnceAndKept :
    (let s := cpu 0x3006 0xF026
     s.Inv ∧ step s = .next (after s) ∧ (after s).faultStatus ≠ s.faultStatus) ∧
    (let s := after (cpu 0x3006 0xF026)
     s.Inv ∧ step s = .next s ∧ s.faultStatus ≠ none) :=
  ⟨⟨cpu_inv _ (by decide), rfl, by decide⟩, faulted_inv, rfl, by decide⟩

/-- A step that consumes a character, and one that only writes. -/
theorem wit_ConsoleIsAppendedToAndConsumedInOrder :
    (let s := (cpu 0x3000 0xF020).setConsoleIn [0x41, 0x42]
     step s = .next (after s) ∧ s.consoleIn = 0x41#8 :: (after s).consoleIn) ∧
    (let s := cpu 0x3000 0xF021
     step s = .next (after s) ∧ (after s).consoleOut = s.consoleOut ++ [0x00#8]) :=
  ⟨⟨rfl, by decide⟩, rfl, by decide⟩
/-- A handler, a cycle, and a step that is none. -/
theorem wit_InstructionWordIsConstantAndUnread :
    exec .rti (cpu 0x3000 0x8000) = .next (cpu 0x3000 0x8000) ∧
    (let s := cpu 0x3000 0xF020
     step s = .next (after s) ∧ s.Fetching) ∧
    (let s := after (cpu 0x3000 0xF020)
     step s = .next (after s) ∧ ¬ s.Fetching) :=
  ⟨rfl, ⟨rfl, by decide⟩, rfl, by decide⟩

/-- Two images across the top of memory, the later one overwriting a cell of the earlier: that cell, a cell
only the earlier one covers, a cell neither covers, and the boot with no image. -/
theorem wit_BootStartsTheLoadedProgram :
    let first : Image := { origin := 0xFFFF#16, words := [0x1441#16, 0xF025#16] }
    let later : Image := { origin := 0x0000#16, words := [0xF026#16] }
    LastLoaded [first, later] 0x0000#16 0xF026#16 ∧
    LastLoaded [first, later] 0xFFFF#16 0x1441#16 ∧
    (∀ i ∈ [first, later], ¬ Covers i 0x0001#16) ∧
    (∀ i ∈ ([] : List Image), ¬ Covers i 0x0001#16) := by
  have none_covers (i : Image) (a : Word)
      (h : ∀ k, k < i.words.length → i.origin + BitVec.ofNat 16 k ≠ a) : ¬ Covers i a :=
    fun ⟨k, hk, ha⟩ => h k hk ha
  refine ⟨⟨[_], _, [], 0, rfl, rfl, by decide, fun j h1 h2 => ?_, by simp⟩,
    ⟨[], _, [_], 0, rfl, rfl, by decide, fun j h1 h2 => ?_, fun l hl => ?_⟩, fun i hi => ?_, by simp⟩
  · exact absurd (show j < 1 from h2) (by omega)
  · obtain rfl : j = 1 := by
      have : j < 2 := h2
      omega
    decide
  · obtain rfl := List.mem_singleton.mp hl
    exact none_covers _ _ (by decide)
  · rcases List.mem_cons.mp hi with rfl | hi
    · exact none_covers _ _ (by decide)
    · obtain rfl := List.mem_singleton.mp hi
      exact none_covers _ _ (by decide)
/-- A state with the invariant and its step. -/
theorem wit_StepKeepsTheInvariant :
    let s := cpu 0x3006 0x1441
    s.Inv ∧ step s = .next (after s) :=
  ⟨cpu_inv _ (by decide), rfl⟩

end Sys2Proof.Tests
end

section
/-! SUPPORT. Operand extensions and byte halves as numbers (spec/00_scope.md R8, R9). -/

namespace Sys2Proof.Machine

/-- `sext_N` keeps the value its bits represent (R9). -/
theorem toInt_sext {n : Nat} (v : BitVec n) (hn : n ≤ 16) : (sext v).toInt = v.toInt :=
  BitVec.toInt_signExtend_of_le hn

/-- `sext_N` as a number: the bits above the sign bit are worth `2^16 - 2^N` when it is set. -/
theorem toNat_sext {n : Nat} (v : BitVec n) (hn : n ≤ 16) :
    (sext v).toNat = v.toNat + if v.msb then 2 ^ 16 - 2 ^ n else 0 := by
  rw [sext, BitVec.toNat_signExtend, BitVec.toNat_setWidth_of_le hn]

theorem toNat_sext_of_msb_false {n : Nat} (v : BitVec n) (hn : n ≤ 16) (hv : v.msb = false) :
    (sext v).toNat = v.toNat := by
  simp [toNat_sext v hn, hv]

/-- R9 adds `0xFFFF << N`, which is `2^16 - 2^N` mod 2^16. -/
theorem toNat_sext_of_msb_true {n : Nat} (v : BitVec n) (hn : n ≤ 16) (hv : v.msb = true) :
    (sext v).toNat = (v.toNat + 0xFFFF * 2 ^ n) % 65536 := by
  have hsext : (sext v).toNat = v.toNat + (2 ^ 16 - 2 ^ n) := by simp [toNat_sext v hn, hv]
  have hlt : v.toNat < 2 ^ n := v.isLt
  have hle : 2 ^ n ≤ 2 ^ 16 := Nat.pow_le_pow_right (by decide) hn
  omega

theorem toNat_lo8 (w : Word) : (lo8 w).toNat = w.toNat % 256 := by
  simp [lo8]

theorem toNat_hi8 (w : Word) : (hi8 w).toNat = w.toNat / 256 := by
  have hlt : w.toNat < 2 ^ 16 := w.isLt
  rw [hi8, BitVec.extractLsb'_toNat, Nat.shiftRight_eq_div_pow]
  omega

theorem toNat_zext8 (c : Byte) : (zext8 c).toNat = c.toNat :=
  BitVec.toNat_setWidth_of_le (by decide)

end Sys2Proof.Machine

namespace Sys2Proof.Proofs

open Sys2Proof.Machine

/-- Settles O33: the sign bit of R9 is the most significant bit, and it decides whether the bits above
are worth 0 or `2^16 - 2^N`. -/
theorem signExtensionKeepsTheValue : Obligations.SignExtensionKeepsTheValue := by
  intro n v _ hn
  rw [← BitVec.msb_eq_getLsbD_last]
  exact ⟨toInt_sext v hn, toNat_sext_of_msb_false v hn, toNat_sext_of_msb_true v hn⟩

/-- Settles O34: one lemma for each primitive of R8. -/
theorem byteHalvesOfAWord : Obligations.ByteHalvesOfAWord :=
  ⟨fun w => ⟨toNat_lo8 w, toNat_hi8 w⟩, toNat_zext8⟩

end Sys2Proof.Proofs
end

section
/-! SUPPORT. What one instruction and one step can do, said once: the invariants and the frames
below cite these cases. -/

namespace Sys2Proof.Machine

open Sys2Proof.Claims

/-! ### The trap routines -/

section
variable (s : State)

@[simp] theorem State.trapGetc_eq : s.trapGetc = s.readChar .noEcho := rfl
@[simp] theorem State.trapOut_eq :
    s.trapOut = (s.consoleWriteAll [lo8 (s.reg .r0)]).consoleFlush := rfl
@[simp] theorem State.trapPuts_eq : s.trapPuts = s.runScan .puts := rfl
@[simp] theorem State.trapIn_eq :
    s.trapIn = ((s.consoleWriteAll Config.inPrompt).consoleFlush).readChar .echo := rfl
@[simp] theorem State.trapPutsp_eq : s.trapPutsp = s.runScan .putsp := rfl
@[simp] theorem State.trapHalt_eq :
    s.trapHalt = ((s.consoleWriteAll Config.haltNotice).consoleFlush).setRunning false := rfl

/-- Every vector outside R70's table raises the exception. -/
theorem State.dispatchTrap_undefined {v : Byte} (hv : trapVectorDefined v = false) :
    s.dispatchTrap v = s.raiseUndefinedTrapVector v := by
  rcases s.dispatchTrap_cases v with ⟨rfl, _⟩ | ⟨rfl, _⟩ | ⟨rfl, _⟩ | ⟨rfl, _⟩ | ⟨rfl, _⟩ |
    ⟨rfl, _⟩ | ⟨_, h⟩
  on_goal 7 => exact h
  all_goals exact absurd hv (by decide)

/-- No routine of R70's table writes the fault status (60_exceptions.md R170). -/
theorem State.dispatchTrap_faultStatus_of_defined {v : Byte} (hv : trapVectorDefined v = true) :
    (s.dispatchTrap v).faultStatus = s.faultStatus := by
  rcases s.dispatchTrap_cases v with ⟨_, h⟩ | ⟨_, h⟩ | ⟨_, h⟩ | ⟨_, h⟩ | ⟨_, h⟩ | ⟨_, h⟩ | ⟨hu, _⟩
  on_goal 7 => exact absurd (hv.symm.trans hu) (by decide)
  all_goals simp [h]

/-- Of R70's table only HALT writes the running flag (10_state.md R27). -/
theorem State.dispatchTrap_running_of_defined {v : Byte} (hv : trapVectorDefined v = true)
    (hne : v ≠ 0x25#8) : (s.dispatchTrap v).running = s.running := by
  rcases s.dispatchTrap_cases v with ⟨_, h⟩ | ⟨_, h⟩ | ⟨_, h⟩ | ⟨_, h⟩ | ⟨_, h⟩ | ⟨rfl, _⟩ | ⟨hu, _⟩
  on_goal 7 => exact absurd (hv.symm.trans hu) (by decide)
  on_goal 6 => exact absurd rfl hne
  all_goals simp [h]

/-- Of the routines only GETC and IN write a register, R0 (43_trap_system.md R150). -/
theorem State.dispatchTrap_writes_only_r0 {v : Byte} {r : Reg}
    (hr : (s.dispatchTrap v).reg r ≠ s.reg r) : r = .r0 ∧ (v = 0x20#8 ∨ v = 0x23#8) := by
  refine ⟨by_contra fun h0 => hr (s.reg_dispatchTrap_other v r h0), ?_⟩
  rcases s.dispatchTrap_cases v with ⟨hv, _⟩ | ⟨_, h⟩ | ⟨_, h⟩ | ⟨hv, _⟩ | ⟨_, h⟩ | ⟨_, h⟩ | ⟨_, h⟩
  on_goal 4 => exact .inr hv
  on_goal 1 => exact .inl hv
  all_goals exact absurd (by simp [h]) hr

/-! A routine neither reads COND or the instruction word nor writes them. -/

theorem State.setCond_self : s.setCond s.cond = s := rfl
theorem State.setCond_setCond (c d : BitVec 3) : (s.setCond c).setCond d = s.setCond d := rfl
theorem State.setIr_self : s.setIr s.ir = s := rfl

theorem State.readChar_setCond_setIr (c : BitVec 3) (w : Word) (k : ConsoleRead) :
    ((s.setCond c).setIr w).readChar k = ((s.readChar k).setCond c).setIr w := by
  rcases s.readChar_cases k with ⟨hin, h⟩ | ⟨b, rest, hin, ⟨rfl, h⟩ | ⟨rfl, h⟩⟩
  · rw [h]; exact State.readChar_blocks _ k hin
  · rw [h]; exact State.readChar_noEcho _ b rest hin
  · rw [h]; exact State.readChar_echo _ b rest hin

theorem State.runScan_setCond_setIr (c : BitVec 3) (w : Word) (r : ScanRoutine) :
    ((s.setCond c).setIr w).runScan r = ((s.runScan r).setCond c).setIr w := by
  have hreg : ((s.setCond c).setIr w).reg .r0 = s.reg .r0 := rfl
  have hmem : ((s.setCond c).setIr w).mem = s.mem := rfl
  unfold State.runScan
  rw [hreg, hmem]
  cases scanBytes r s.mem scanLimit (s.reg .r0) <;> rfl

theorem State.dispatchTrap_setCond_setIr (c : BitVec 3) (w : Word) (v : Byte) :
    ((s.setCond c).setIr w).dispatchTrap v = ((s.dispatchTrap v).setCond c).setIr w := by
  rcases s.dispatchTrap_cases v with ⟨rfl, h⟩ | ⟨rfl, h⟩ | ⟨rfl, h⟩ | ⟨rfl, h⟩ | ⟨rfl, h⟩ |
    ⟨rfl, h⟩ | ⟨hv, h⟩
  · rw [h]; exact s.readChar_setCond_setIr c w .noEcho
  · rfl
  · rw [h]; exact s.runScan_setCond_setIr c w .puts
  · rw [h]
    exact ((s.consoleWriteAll Config.inPrompt).consoleFlush).readChar_setCond_setIr c w .echo
  · rw [h]; exact s.runScan_setCond_setIr c w .putsp
  · rfl
  · rw [h, State.dispatchTrap_undefined _ hv]; rfl

theorem State.dispatchTrap_setIr (w : Word) (v : Byte) :
    (s.setIr w).dispatchTrap v = (s.dispatchTrap v).setIr w := by
  have h := s.dispatchTrap_setCond_setIr s.cond w v
  rwa [← (s.dispatchTrap v).setCond_self, s.dispatchTrap_cond v]

theorem State.dispatchTrap_setCond (c : BitVec 3) (v : Byte) :
    (s.setCond c).dispatchTrap v = (s.dispatchTrap v).setCond c := by
  have h := s.dispatchTrap_setCond_setIr c s.ir v
  rwa [← ((s.dispatchTrap v).setCond c).setIr_self, State.setCond_ir, s.dispatchTrap_ir v]

end

/-! ### Handlers -/

/-- What the handler of `i` can answer on `s`. `transfer` stands for BR and JMP, and for what writes
nothing at all: BR falling through, RTI and RES, with `target` the PC there is. -/
inductive ExecEffect (i : Instr) (s : State) : State → Prop where
  | result (dr : Reg) (v : Word) (hi : resultReg i = some dr) :
      ExecEffect i s (s.writeResult dr v)
  | transfer (target : Word) : ExecEffect i s (s.setPc target)
  | call (target : Word) (hi : writesLink i = true) : ExecEffect i s (s.link.setPc target)
  | store (a : Word) (sr : Reg) (hi : storeOf i s = some (a, sr)) :
      ExecEffect i s (s.memWrite a (s.reg sr))
  | trap (v : Byte) (hi : i = .trap v) : ExecEffect i s (s.enterTrap.dispatchTrap v)

theorem execEffect_of_exec {i : Instr} {s t : State} (h : exec i s = .next t) :
    ExecEffect i s t := by
  cases i <;> cases h
  case br nzp off =>
    split
    · exact .transfer _
    · exact .transfer s.pc
  case jmp => exact .transfer _
  case rti | res => exact .transfer s.pc
  case jsr | jsrr => exact .call _ rfl
  case st | sti | str => exact .store _ _ rfl
  case trap v => exact .trap v rfl
  all_goals exact .result _ _ rfl

/-- A flag-setting instruction writes a result and COND from it, and nothing else
(10_state.md R26). -/
theorem exec_of_resultReg {i : Instr} {dr : Reg} (s : State) (hi : resultReg i = some dr) :
    ∃ v, exec i s = .next (s.writeResult dr v) := by
  cases i <;> cases hi <;> exact ⟨_, rfl⟩

theorem exec_undefinedTrap {v : Byte} (s : State) (hv : trapVectorDefined v = false) :
    exec (.trap v) s = .next (s.enterTrap.raiseUndefinedTrapVector v) := by
  rw [← s.enterTrap.dispatchTrap_undefined hv]; rfl

/-- The running flag is cleared by HALT and by an undefined vector, and by nothing else
(10_state.md R27). -/
theorem exec_running_eq_false_iff {i : Instr} {s t : State} (h : exec i s = .next t)
    (hs : s.running = true) :
    t.running = false ↔
      i = Instr.halt ∨ ∃ v, trapVectorDefined v = false ∧ i = .trap v := by
  constructor
  · intro ht
    cases execEffect_of_exec h with
    | trap v hi =>
      cases hv : trapVectorDefined v with
      | false => exact .inr ⟨v, hv, hi⟩
      | true =>
        have hhalt : v = 0x25#8 := by_contra fun hne => by
          rw [State.dispatchTrap_running_of_defined _ hv hne, State.enterTrap_running, hs] at ht
          cases ht
        exact .inl (hi.trans (congrArg Instr.trap hhalt))
    | _ => simp [hs] at ht
  · rintro (rfl | ⟨v, hv, rfl⟩)
    · cases h; rfl
    · rw [exec_undefinedTrap s hv] at h
      cases h; rfl

/-- The fault status is written by an undefined vector only (10_state.md R30). -/
theorem exec_faultStatus {i : Instr} {s t : State} (h : exec i s = .next t) :
    t.faultStatus = s.faultStatus ∨ ∃ v, trapVectorDefined v = false ∧ i = .trap v ∧
      t.faultStatus = some (.undefinedTrapVector v (s.pc - 1)) := by
  cases execEffect_of_exec h with
  | trap v hi =>
    cases hv : trapVectorDefined v with
    | false => exact .inr ⟨v, hv, hi, by simp [State.dispatchTrap_undefined _ hv]⟩
    | true => exact .inl (State.dispatchTrap_faultStatus_of_defined _ hv)
  | _ => exact .inl rfl

/-- Only the seven instructions of 10_state.md R26 write COND. -/
theorem exec_cond {i : Instr} {s t : State} (h : exec i s = .next t) (hc : t.cond ≠ s.cond) :
    resultReg i ≠ none := by
  cases execEffect_of_exec h with
  | result dr v hi => simp [hi]
  | _ => simp at hc

/-- The writers of a general register (10_state.md R21). -/
theorem exec_reg {i : Instr} {s t : State} {r : Reg} (h : exec i s = .next t)
    (hr : t.reg r ≠ s.reg r) :
    resultReg i = some r ∨ (writesLink i = true ∧ r = .r7) ∨
      ((i = Instr.getc ∨ i = Instr.inChar) ∧ r = .r0) := by
  cases execEffect_of_exec h with
  | result dr v hi =>
    have hdr : r = dr := by_contra fun hne => hr (s.reg_writeResult_other dr r v hne)
    exact .inl (hdr ▸ hi)
  | call target hi =>
    have h7 : r = .r7 := by_contra fun hne => hr (by simp [State.reg_link, hne])
    exact .inr (.inl ⟨hi, h7⟩)
  | trap v hi =>
    by_cases h7 : r = .r7
    · exact .inr (.inl ⟨hi ▸ rfl, h7⟩)
    · have hd : (s.enterTrap.dispatchTrap v).reg r ≠ s.enterTrap.reg r := by
        simpa [State.reg_enterTrap, h7] using hr
      obtain ⟨h0, hv⟩ := s.enterTrap.dispatchTrap_writes_only_r0 hd
      exact .inr (.inr ⟨by simpa [hi] using hv, h0⟩)
  | _ => simp at hr

/-- No handler writes the instruction word (10_state.md R29). -/
theorem exec_ir {i : Instr} {s t : State} (h : exec i s = .next t) : t.ir = s.ir := by
  cases execEffect_of_exec h <;> simp

/-- No handler reads the instruction word (10_state.md R29). -/
theorem exec_setIr {i : Instr} {s t : State} (w : Word) (h : exec i s = .next t) :
    exec i (s.setIr w) = .next (t.setIr w) := by
  cases i <;> cases h
  case trap v =>
    exact congrArg Host.Outcome.next (s.enterTrap.dispatchTrap_setIr w v)
  case br nzp off =>
    exact congrArg Host.Outcome.next
      (apply_ite (State.setIr · w) (nzp &&& s.cond ≠ 0b000#3)
        (s.setPc (s.pcRelative9 off)) s).symm
  all_goals rfl

/-- Every handler but BR's is blind to COND, and what it answers differs at most in COND
(10_state.md R24). -/
theorem exec_setCond {i : Instr} {s t : State} (c : BitVec 3) (hi : ∀ nzp off, i ≠ .br nzp off)
    (h : exec i s = .next t) :
    ∃ u, exec i (s.setCond c) = .next u ∧ u.setCond t.cond = t := by
  cases i <;> cases h
  case br nzp off => exact absurd rfl (hi nzp off)
  case trap v =>
    refine ⟨_, rfl, ?_⟩
    change ((s.enterTrap.setCond c).dispatchTrap v).setCond (s.enterTrap.dispatchTrap v).cond = _
    rw [State.dispatchTrap_setCond, State.setCond_setCond, State.setCond_self, State.returnFromTrap]
  all_goals exact ⟨_, rfl, rfl⟩

/-! ### Steps -/

/-- What a step of `s` can answer. -/
inductive StepEffect (s : State) : State → Prop where
  | rest (hs : s.lifecycle ≠ .running) : StepEffect s s
  | wait (k : ConsoleRead) (hs : s.lifecycle = .running) (hk : s.inputWait = some k) :
      StepEffect s (s.readChar k)
  | scan (o : OpenScan) (hs : s.lifecycle = .running) (hw : s.inputWait = none)
      (ho : s.openScan = some o) : StepEffect s (s.scanOneCell o)
  | cycle (u : State) (hf : s.Fetching) (hu : exec s.current s.fetch = .next u) :
      StepEffect s u.loopTest

theorem stepEffect_of_step {s t : State} (h : step s = .next t) : StepEffect s t := by
  rcases step_cases s with ⟨ha, hs⟩ | ⟨k, ha, hs⟩ | ⟨o, ha, hs⟩ | ⟨ha, u, hu, hs⟩ <;>
    cases hs.symm.trans h
  · exact .rest (s.engineAction_rest_iff.mp ha)
  · obtain ⟨hl, hk⟩ := (s.engineAction_awaitInput_iff k).mp ha
    exact .wait k hl hk
  · obtain ⟨hl, hw, ho⟩ := (s.engineAction_scanOn_iff o).mp ha
    exact .scan o hl hw ho
  · exact .cycle u (s.engineAction_cycle_iff.mp ha) hu

/-- A step of a blocked machine tries its read again. -/
theorem step_of_wait {s : State} {k : ConsoleRead} (hl : s.lifecycle = .running)
    (hk : s.inputWait = some k) : step s = .next (s.readChar k) := by
  simp [step, (s.engineAction_awaitInput_iff k).mpr ⟨hl, hk⟩]

/-- A step of a fetching machine is an instruction cycle. -/
theorem step_of_fetching {s t : State} (hf : s.Fetching) (h : step s = .next t) :
    ∃ u, exec s.current s.fetch = .next u ∧ t = u.loopTest := by
  obtain ⟨hl, hw, ho⟩ := hf
  cases stepEffect_of_step h with
  | rest hs => exact absurd hl hs
  | wait k _ hk => simp [hw] at hk
  | scan o _ _ ho' => simp [ho] at ho'
  | cycle u _ hu => exact ⟨u, hu, rfl⟩

/-- What a step that fetches nothing leaves alone. -/
theorem step_frame_of_not_fetching {s t : State} (hf : ¬ s.Fetching) (h : step s = .next t) :
    t.cond = s.cond ∧ t.running = s.running ∧ SameEngine s t := by
  cases stepEffect_of_step h with
  | rest => exact ⟨rfl, rfl, rfl, rfl, rfl⟩
  | wait k => simp [SameEngine]
  | scan o => simp [SameEngine]
  | cycle u hf' => exact absurd hf' hf

/-- A step that fetches nothing writes no register but R0, at the end of an input wait. -/
theorem reg_step_of_not_fetching {s t : State} {r : Reg} (hf : ¬ s.Fetching)
    (h : step s = .next t) (hr : t.reg r ≠ s.reg r) : s.inputWait ≠ none ∧ r = .r0 := by
  cases stepEffect_of_step h with
  | rest => exact absurd rfl hr
  | wait k _ hk =>
    exact ⟨by simp [hk], by_contra fun h0 => hr (s.reg_readChar_other k r h0)⟩
  | scan o => simp at hr
  | cycle u hf' => exact absurd hf' hf

end Sys2Proof.Machine
end

section
/-! SUPPORT. A scan that finds no end reads every cell of memory (spec/92_eei_decisions.md D14). -/

namespace Sys2Proof.Machine

/-- A scan fails exactly when none of the cells it may read ends it. -/
theorem scanBytes_eq_none_iff (r : ScanRoutine) (m : Memory) (fuel : Nat) (a : Word) :
    scanBytes r m fuel a = none ↔
      ∀ k, k < fuel → (scanCell r (m.read (a + BitVec.ofNat 16 k))).2 = false := by
  induction fuel generalizing a with
  | zero => simp [scanBytes]
  | succ fuel ih =>
    have hrest := ih (a + 1)
    simp only [← addr_succ] at hrest
    rw [Nat.forall_lt_succ_left, BitVec.add_zero]
    cases hend : (scanCell r (m.read a)).2 with
    | true => simp [scanBytes_stop r m fuel a hend]
    | false =>
      rw [scanBytes_go r m fuel a hend, Option.map_eq_none_iff, hrest]
      exact (and_iff_right rfl).symm

/-- The cells of a scan of `scanLimit` cells are all of memory. -/
theorem scanBytes_scanLimit_eq_none_iff (r : ScanRoutine) (m : Memory) (a : Word) :
    scanBytes r m scanLimit a = none ↔ ∀ b : Word, (scanCell r (m.read b)).2 = false := by
  rw [scanBytes_eq_none_iff]
  refine ⟨fun h b => ?_, fun h k _ => h _⟩
  have hb := h (b - a).toNat (b - a).isLt
  rwa [BitVec.ofNat_toNat, BitVec.setWidth_eq, BitVec.add_comm, BitVec.sub_add_cancel] at hb

end Sys2Proof.Machine
end

section
/-! SUPPORT. Every operation of a step keeps the model's invariant. -/

namespace Sys2Proof.Machine

variable {s t : State}

/-- A Running machine has met no fault: the first one stops the run (60_exceptions.md R172). -/
theorem State.Inv.faultStatus_eq_none (hi : s.Inv) (hl : s.lifecycle = .running) :
    s.faultStatus = none :=
  by_contra fun hne => by cases hl.symm.trans (hi.faultHalted hne)

/-- In a fetching state the invariant's clauses about waits, scans and stops say nothing. -/
theorem State.inv_iff_of_fetching (s : State) (hf : s.Fetching) :
    s.Inv ↔ s.mem.wf ∧ s.CondLegal ∧ s.running = true ∧ s.faultStatus = none ∧
      s.consoleFlushed ≤ s.consoleOut.length := by
  obtain ⟨hl, hw, ho⟩ := hf
  constructor
  · intro hi
    exact ⟨hi.memWf, hi.condLegal, hi.runningIff.mpr hl, hi.faultStatus_eq_none hl, hi.flushedLe⟩
  · rintro ⟨hm, hc, hr, hfs, hle⟩
    exact {
      memWf := hm
      condLegal := hc
      runningIff := by simp [hr, hl]
      faultHalted := fun h => absurd hfs h
      faultRecord := by simp [hfs]
      waitInTrap := by simp [hw]
      scanInTrap := by simp [ho]
      scanEndless := by simp [ho]
      stoppedInTrap := by simp [hl, hw, ho]
      flushedLe := hle }

/-- A machine that waits for input is in no endless scan. -/
theorem State.Inv.openScan_eq_none (hi : s.Inv) {k : ConsoleRead} (hk : s.inputWait = some k) :
    s.openScan = none := by
  cases ho : s.openScan with
  | none => rfl
  | some o =>
    obtain ⟨_, hw, _⟩ := hi.scanInTrap o ho
    cases hk.symm.trans hw

theorem condLegal_of_condOf {v : Word} (h : s.cond = condOf v) : s.CondLegal := by
  rw [State.CondLegal, h]
  exact .inr (condOf_one_flag v)

theorem State.Inv.consoleSupply (hi : s.Inv) (bs : List Byte) : (s.consoleSupply bs).Inv :=
  { hi with }

theorem State.Inv.fetch (hi : s.Inv) (hf : s.Fetching) : s.fetch.Inv :=
  (s.fetch.inv_iff_of_fetching hf).mpr ((s.inv_iff_of_fetching hf).mp hi)

theorem State.Inv.writeResult (hi : s.Inv) (hf : s.Fetching) (dr : Reg) (v : Word) :
    (s.writeResult dr v).Inv := by
  obtain ⟨hm, _, hr, hfs, hle⟩ := (s.inv_iff_of_fetching hf).mp hi
  exact ((s.writeResult dr v).inv_iff_of_fetching hf).mpr
    ⟨hm, condLegal_of_condOf (s.writeResult_cond dr v), hr, hfs, hle⟩

theorem State.Inv.setReg (hi : s.Inv) (hf : s.Fetching) (r : Reg) (v : Word) :
    (s.setReg r v).Inv :=
  ((s.setReg r v).inv_iff_of_fetching hf).mpr ((s.inv_iff_of_fetching hf).mp hi)

theorem State.Inv.setPc (hi : s.Inv) (hf : s.Fetching) (target : Word) : (s.setPc target).Inv :=
  ((s.setPc target).inv_iff_of_fetching hf).mpr ((s.inv_iff_of_fetching hf).mp hi)

theorem State.Inv.memWrite (hi : s.Inv) (hf : s.Fetching) (a v : Word) : (s.memWrite a v).Inv := by
  obtain ⟨hm, hrest⟩ := (s.inv_iff_of_fetching hf).mp hi
  exact ((s.memWrite a v).inv_iff_of_fetching hf).mpr
    ⟨Memory.wf_write s.mem a v hm, hrest⟩

/-- Writing output keeps the invariant in every state: it makes nothing visible. -/
theorem State.Inv.consoleWriteAll (hi : s.Inv) (bs : List Byte) : (s.consoleWriteAll bs).Inv :=
  { hi with flushedLe := by simpa using Nat.le_add_right_of_le hi.flushedLe }

theorem State.Inv.consoleFlush (hi : s.Inv) : s.consoleFlush.Inv :=
  { hi with flushedLe := Nat.le_refl _ }

/-- The end of an input wait, and a read that need not wait, leave a fetching state. -/
theorem State.Inv.clearWait (hi : s.Inv) (hl : s.lifecycle = .running) (ho : s.openScan = none)
    (rest : List Byte) : ((s.setConsoleIn rest).setInputWait none).Inv :=
  (((s.setConsoleIn rest).setInputWait none).inv_iff_of_fetching ⟨hl, rfl, ho⟩).mpr
    ⟨hi.memWf, hi.condLegal, hi.runningIff.mpr hl, hi.faultStatus_eq_none hl, hi.flushedLe⟩

/-- The read of a TRAP keeps the invariant, tried for the first time or again. -/
theorem State.Inv.readChar (hi : s.Inv) (k : ConsoleRead) (hl : s.lifecycle = .running)
    (ho : s.openScan = none) (hir : decode s.ir = .trap k.vector) (hpc : s.pc = s.reg .r7) :
    (s.readChar k).Inv := by
  rcases s.readChar_cases k with ⟨_, h⟩ | ⟨c, rest, _, ⟨_, h⟩ | ⟨_, h⟩⟩ <;> rw [h]
  · exact { hi with
      waitInTrap := fun k' hk' => by
        cases hk'
        exact ⟨hl, hir⟩
      scanInTrap := fun o ho' => by cases ho.symm.trans ho'
      stoppedInTrap := fun _ => hpc }
  · exact (hi.clearWait hl ho rest).setReg ⟨hl, rfl, ho⟩ .r0 (zext8 c)
  · exact (((hi.consoleWriteAll [c]).clearWait hl ho rest).setReg ⟨hl, rfl, ho⟩ .r0
      (zext8 c)).consoleFlush

/-- A scan that ends leaves a fetching state; one that does not has found no end in memory. -/
theorem State.Inv.runScan (hi : s.Inv) (r : ScanRoutine) (hf : s.Fetching)
    (hir : decode s.ir = .trap r.vector) (hpc : s.pc = s.reg .r7) : (s.runScan r).Inv := by
  rcases s.runScan_cases r with ⟨bs, _, h⟩ | ⟨hnone, h⟩ <;> rw [h]
  · exact (hi.consoleWriteAll bs).consoleFlush
  · obtain ⟨hl, hw, _⟩ := hf
    exact { hi with
      scanInTrap := fun o ho => by
        cases ho
        exact ⟨hl, hw, hir⟩
      scanEndless := fun o ho => by
        cases ho
        exact (scanBytes_scanLimit_eq_none_iff r s.mem _).mp hnone
      stoppedInTrap := fun _ => hpc }

/-- An endless scan goes on to the next cell: no cell of memory ends it. -/
theorem State.Inv.scanOneCell (hi : s.Inv) (o : OpenScan) (ho : s.openScan = some o) :
    (s.scanOneCell o).Inv := by
  have hend := hi.scanEndless o ho
  rcases s.scanOneCell_cases o with ⟨hstop, _⟩ | ⟨_, h⟩
  · cases (hend o.addr).symm.trans hstop
  · rw [h]
    exact { hi.consoleWriteAll _ with
      scanInTrap := fun o' ho' => by
        cases ho'
        exact hi.scanInTrap o ho
      scanEndless := fun o' ho' => by
        cases ho'
        exact hend
      stoppedInTrap := fun _ => hi.stoppedInTrap (by simp [ho]) }

/-- Clearing the running flag in a TRAP, and the loop test after it, end the run: HALT with the
fault status there is, the exception with its record. -/
theorem State.Inv.stop (hi : s.Inv) (hf : s.Fetching) (hpc : s.pc = s.reg .r7)
    (f : Option FaultRecord) (hrec : ∀ v a, f = some (.undefinedTrapVector v a) →
      trapVectorDefined v = false ∧ a + 1 = s.pc) :
    ((s.setFaultStatus f).setRunning false).loopTest.Inv := by
  obtain ⟨_, hw, ho⟩ := hf
  rw [State.loopTest_of_stopped _ rfl]
  exact { hi with
    runningIff := by simp
    faultHalted := fun _ => rfl
    faultRecord := hrec
    waitInTrap := fun k hk => by cases hw.symm.trans hk
    scanInTrap := fun o ho' => by cases ho.symm.trans ho'
    stoppedInTrap := fun _ => hpc }

/-- The loop test changes nothing while the machine is Running. -/
theorem State.Inv.loopTest (hi : s.Inv) (hl : s.lifecycle = .running) : s.loopTest.Inv := by
  rwa [State.loopTest_of_running s (hi.runningIff.mpr hl)]

/-- After trap entry every vector, defined or not, keeps the invariant over the rest of the
cycle. -/
theorem State.Inv.dispatchTrap (hi : s.Inv) (hf : s.Fetching) {v : Byte}
    (hir : decode s.ir = .trap v) (hpc : s.pc = s.reg .r7) : (s.dispatchTrap v).loopTest.Inv := by
  have ⟨hl, _, ho⟩ := hf
  rcases s.dispatchTrap_cases v with ⟨rfl, h⟩ | ⟨rfl, h⟩ | ⟨rfl, h⟩ | ⟨rfl, h⟩ | ⟨rfl, h⟩ |
    ⟨rfl, h⟩ | ⟨hv, h⟩ <;> rw [h]
  · exact (hi.readChar .noEcho hl ho hir hpc).loopTest (by simpa using hl)
  · exact (hi.consoleWriteAll _).consoleFlush.loopTest hl
  · exact (hi.runScan .puts hf hir hpc).loopTest (by simpa using hl)
  · exact ((hi.consoleWriteAll _).consoleFlush.readChar .echo hl ho hir hpc).loopTest
      (by simpa using hl)
  · exact (hi.runScan .putsp hf hir hpc).loopTest (by simpa using hl)
  · exact (hi.consoleWriteAll _).consoleFlush.stop hf hpc s.faultStatus hi.faultRecord
  · refine hi.stop hf hpc _ fun v' a hrec => ?_
    cases hrec
    exact ⟨hv, BitVec.sub_add_cancel _ _⟩

/-- The handler of the fetched word and the loop test keep the invariant. -/
theorem State.Inv.exec (hi : s.Inv) (hf : s.Fetching) (h : exec (decode s.ir) s = .next t) :
    t.loopTest.Inv := by
  have ⟨hl, _, _⟩ := hf
  cases execEffect_of_exec h with
  | result dr v => exact (hi.writeResult hf dr v).loopTest hl
  | transfer target => exact (hi.setPc hf target).loopTest hl
  | call target => exact ((hi.setReg hf .r7 s.pc).setPc hf target).loopTest hl
  | store a sr => exact (hi.memWrite hf a (s.reg sr)).loopTest hl
  | trap v hir =>
    exact (hi.setReg hf .r7 s.pc).dispatchTrap hf hir (s.reg_setReg_same .r7 s.pc).symm

/-- Every step keeps the model's invariant. -/
theorem State.Inv.step (hi : s.Inv) (h : step s = .next t) : t.Inv := by
  cases stepEffect_of_step h with
  | rest => exact hi
  | wait k hl hk =>
    obtain ⟨_, hir⟩ := hi.waitInTrap k hk
    exact hi.readChar k hl (hi.openScan_eq_none hk) hir (hi.stoppedInTrap (by simp [hk]))
  | scan o _ _ ho => exact hi.scanOneCell o ho
  | cycle u hf hu => exact (hi.fetch hf).exec hf hu

end Sys2Proof.Machine
end

section
/-! SUPPORT. The flag of a value by its sign (spec/10_state.md R25). -/

namespace Sys2Proof.Machine

open Sys2Proof.Claims

theorem flagsOf_condOf (v : Word) : FlagsOf v (condOf v) := by
  have hsign : v.getLsbD 15 = decide (v.toInt < 0) :=
    v.msb_eq_getLsbD_last.symm.trans v.msb_eq_toInt
  rcases condOf_cases v with ⟨rfl, h⟩ | ⟨h0, hm, h⟩ | ⟨h0, hm, h⟩ <;> rw [h]
  · exact ⟨fun _ => rfl, by decide, by decide⟩
  · have hneg : v.toInt < 0 := of_decide_eq_true (hsign.symm.trans hm)
    exact ⟨fun hz => absurd hz h0, fun _ => rfl, fun hpos => absurd hneg hpos.not_gt⟩
  · have hnonneg : ¬ v.toInt < 0 := of_decide_eq_false (hsign.symm.trans hm)
    exact ⟨fun hz => absurd hz h0, fun hneg => absurd hneg hnonneg, fun _ => rfl⟩

end Sys2Proof.Machine
end

section
/-! The statements about the machine's state (spec/10_state.md). -/

namespace Sys2Proof.Proofs

open Sys2Proof.Machine Sys2Proof.Claims

/-- Settles O53: each operation of a step keeps the invariant, by `State.Inv.step`. -/
theorem stepKeepsTheInvariant : Obligations.StepKeepsTheInvariant :=
  ⟨fun _ _ hi h => hi.step h, fun _ bs hi => hi.consoleSupply bs⟩

/-- Settles O40: the blocked read changes nothing, and the read of a supplied character is one of
the two outcomes of `readChar`. -/
theorem inputWaitEndsWithTheNextCharacter : Obligations.InputWaitEndsWithTheNextCharacter := by
  intro s k hl hk hin
  constructor
  · refine core_run_fixed s ?_
    rw [step_of_wait hl hk, s.readChar_blocks k hin, ← hk]
    rfl
  · intro c more
    have hin' : (s.consoleSupply (c :: more)).consoleIn = c :: more := by
      simp [State.consoleSupply, hin]
    refine ⟨_, step_of_wait hl hk, ?_⟩
    cases k with
    | noEcho =>
      rw [State.readChar_noEcho _ c more hin']
      simp +contextual [State.consoleSupply, toNat_zext8, SameRegsExcept, SameMemory, SameEngine]
    | echo =>
      rw [State.readChar_echo _ c more hin']
      simp +contextual [State.consoleSupply, toNat_zext8, SameRegsExcept, SameMemory, SameEngine,
        AllFlushed]

/-- Settles O43: `exec_reg` names the writers of a cycle, and any other step writes at most R0. -/
theorem registersHaveOnlyTheListedWriters : Obligations.RegistersHaveOnlyTheListedWriters := by
  intro s t r h hr
  by_cases hf : s.Fetching
  · obtain ⟨u, hu, rfl⟩ := step_of_fetching hf h
    exact .inl ⟨hf, exec_reg hu (by simpa using hr)⟩
  · exact .inr (reg_step_of_not_fetching hf h hr)

/-- Settles O44: a result is the only write of COND, and the handlers but BR's commute with a change
of COND. -/
theorem condHasOnlyTheListedWritersAndReader :
    Obligations.CondHasOnlyTheListedWritersAndReader := by
  refine ⟨fun s t h hc => ?_, fun s t dr hf hdr h => ?_, fun i s t c hi h => exec_setCond c hi h⟩
  · by_cases hf : s.Fetching
    · obtain ⟨u, hu, rfl⟩ := step_of_fetching hf h
      exact ⟨hf, exec_cond hu (by simpa using hc)⟩
    · obtain ⟨hsame, _⟩ := step_frame_of_not_fetching hf h
      exact absurd hsame hc
  · obtain ⟨u, hu, rfl⟩ := step_of_fetching hf h
    obtain ⟨v, hv⟩ := exec_of_resultReg s.fetch hdr
    cases hu.symm.trans hv
    simpa using flagsOf_condOf v

/-- Settles O46: `exec_running_eq_false_iff` names the two ends, and the loop test carries the flag
into the lifecycle state. -/
theorem runEndsInExactlyTwoWays : Obligations.RunEndsInExactlyTwoWays := by
  intro s t hi hl h
  have hrun := hi.runningIff.mpr hl
  by_cases hf : s.Fetching
  · obtain ⟨u, hu, rfl⟩ := step_of_fetching hf h
    refine ⟨?_, ?_, fun _ hhalt => ?_, fun v _ hv hcur => ?_⟩
    · rw [State.loopTest_running, exec_running_eq_false_iff hu hrun]
      exact (and_iff_right hf).symm
    · have hul : u.lifecycle = .running := (exec_lifecycle _ _ _ hu).trans hl
      cases hur : u.running <;> simp [State.loopTest_lifecycle, hur, hul]
    · rw [hhalt] at hu
      cases hu
      rw [State.loopTest_faultStatus]
      exact (State.dispatchTrap_faultStatus_of_defined _ (by decide)).trans
        (hi.faultStatus_eq_none hl)
    · rw [hcur, exec_undefinedTrap _ hv] at hu
      cases hu
      simp
  · obtain ⟨_, hrun', hl', _⟩ := step_frame_of_not_fetching hf h
    simp [hf, hrun', hrun, hl', hl]

/-- Settles O47: a record is there only in Halted, where nothing steps; and `exec_faultStatus` names
the one writer. -/
theorem faultRecordIsWrittenOnceAndKept : Obligations.FaultRecordIsWrittenOnceAndKept := by
  intro s t hi h
  by_cases hf : s.Fetching
  · obtain ⟨u, hu, rfl⟩ := step_of_fetching hf h
    have ⟨hl, _, _⟩ := hf
    refine ⟨fun hne => absurd (hi.faultStatus_eq_none hl) hne, fun hne => ⟨hf, ?_⟩⟩
    rcases exec_faultStatus hu with hsame | ⟨v, hv, hcur, hrec⟩
    · exact absurd (by simpa using hsame) hne
    · exact ⟨v, hv, hcur, by simpa using hrec⟩
  · obtain ⟨_, _, _, hsame, _⟩ := step_frame_of_not_fetching hf h
    exact ⟨fun _ => hsame, fun hne => absurd hsame hne⟩

/-- Settles O49: no handler writes or reads the word, and only a fetch loads it. -/
theorem instructionWordIsConstantAndUnread : Obligations.InstructionWordIsConstantAndUnread := by
  refine ⟨fun i s t w h => ⟨exec_ir h, exec_setIr w h⟩, fun s t h => ⟨fun hf => ?_, fun hf => ?_⟩⟩
  · obtain ⟨u, hu, rfl⟩ := step_of_fetching hf h
    simpa using exec_ir hu
  · obtain ⟨_, _, _, _, hir⟩ := step_frame_of_not_fetching hf h
    exact hir

/-- Settles O35: COND is `condOf` of the register, and no other field is written. -/
theorem setccSetsExactlyOneFlag : Obligations.SetccSetsExactlyOneFlag := fun s r =>
  ⟨flagsOf_condOf (s.reg r), condOf_one_flag (s.reg r), rfl⟩

/-- Settles O38: the engine rests in Halted, and each host operation tests for Idle. -/
theorem haltedIsTerminal : Obligations.HaltedIsTerminal := by
  intro s hs
  have hrest : step s = .next s := by
    simp [step, s.engineAction_rest_iff.mpr (by simp [hs])]
  exact ⟨core_run_fixed s hrest, by simp [State.hostStart, hs], by simp [State.hostWriteCell, hs],
    by simp [State.hostSetPc, hs], by simp [State.hostLoad, hs]⟩

end Sys2Proof.Proofs
end

section
/-! SUPPORT. Stores over a step: what a fetching step does with a store, and that nothing else writes
memory (spec/20_memory.md R41, R45). -/

namespace Sys2Proof.Machine

open Sys2Proof.Claims

/-- A store writes one cell and nothing else (42_load_store.md R124 to R126). -/
theorem exec_of_storeOf {i : Instr} {s : State} {a : Word} {sr : Reg}
    (hi : storeOf i s = some (a, sr)) : exec i s = .next (s.memWrite a (s.reg sr)) := by
  cases i <;> cases hi <;> rfl

/-- Only a store changes a cell: the one at its address, to the value of its register. -/
theorem exec_memRead {i : Instr} {s t : State} {a : Word} (h : exec i s = .next t)
    (ha : t.memRead a ≠ s.memRead a) :
    ∃ sr, storeOf i s = some (a, sr) ∧ t.memRead a = s.reg sr := by
  cases execEffect_of_exec h with
  | store b sr hi =>
    have hab : a = b := by_contra fun hne => ha (s.memRead_memWrite_other b a _ hne)
    subst hab
    exact ⟨sr, hi, s.memRead_memWrite_same a _⟩
  | _ => simp at ha

/-- A step that fetches nothing writes no cell of memory. -/
theorem memRead_step_of_not_fetching {s t : State} (hf : ¬ s.Fetching) (h : step s = .next t)
    (a : Word) : t.memRead a = s.memRead a := by
  cases stepEffect_of_step h with
  | rest => rfl
  | wait k => simp
  | scan o => simp
  | cycle u hf' => exact absurd hf' hf

/-- In a fetching state the handler's answer, after the loop test, is the step's. -/
theorem step_of_exec {s u : State} (hf : s.Fetching) (hu : exec s.current s.fetch = .next u) :
    step s = .next u.loopTest := by
  simp [step, s.engineAction_cycle_iff.mpr hf, cycle_eq s u hu]

/-- A fetching machine completes its step, with the word at PC as the instruction word. -/
theorem exists_step_of_fetching {s : State} (hf : s.Fetching) :
    ∃ t, step s = .next t ∧ t.ir = s.memRead s.pc := by
  obtain ⟨u, hu⟩ := exec_answers_next s.fetch s.current
  exact ⟨u.loopTest, step_of_exec hf hu, by simpa using exec_ir hu⟩

/-- The whole step of a store in a running machine. -/
theorem step_of_store {s : State} {a : Word} {sr : Reg} (hf : s.Fetching)
    (hrun : s.running = true) (hi : storeOf s.current s.fetch = some (a, sr)) :
    step s = .next (s.fetch.memWrite a (s.reg sr)) := by
  rw [step_of_exec hf (exec_of_storeOf hi), State.reg_fetch,
    (s.fetch.memWrite a (s.reg sr)).loopTest_of_running hrun]

/-- After the fetch, offset 0 is the next instruction's cell (20_memory.md R54). -/
theorem storeOf_st_zero (s : State) (sr : Reg) :
    storeOf (.st sr 0#9) s.fetch = some (s.pc + 1, sr) := by
  simp [storeOf, State.pcRelative9, sext]

end Sys2Proof.Machine
end

section
/-! The statements about memory (spec/20_memory.md). -/

namespace Sys2Proof.Proofs

open Sys2Proof.Machine Sys2Proof.Claims

/-- Settles O42: the store writes the cell PC has moved to, so the next step decodes and fetches the
stored value. -/
theorem storeIsSeenByTheNextFetch : Obligations.StoreIsSeenByTheNextFetch := by
  intro s sr hf hrun hcur
  have hstore : storeOf s.current s.fetch = some (s.pc + 1, sr) := hcur ▸ storeOf_st_zero s sr
  have hcell : (s.fetch.memWrite (s.pc + 1) (s.reg sr)).memRead (s.pc + 1) = s.reg sr :=
    s.fetch.memRead_memWrite_same (s.pc + 1) (s.reg sr)
  obtain ⟨u, hu, hir⟩ :=
    exists_step_of_fetching (s := s.fetch.memWrite (s.pc + 1) (s.reg sr)) hf
  exact ⟨_, step_of_store hf hrun hstore, hf, congrArg decode hcell, u, hu, hir.trans hcell⟩

/-- Settles O45: `exec_memRead` names the store of a cycle, and any other step leaves memory alone. -/
theorem memoryHasOnlyTheStoresAsWriters : Obligations.MemoryHasOnlyTheStoresAsWriters := by
  intro s t a h ha
  by_cases hf : s.Fetching
  · obtain ⟨u, hu, rfl⟩ := step_of_fetching hf h
    have hchanged : u.memRead a ≠ s.fetch.memRead a := by simpa using ha
    exact ⟨hf, by simpa using exec_memRead hu hchanged⟩
  · exact absurd (memRead_step_of_not_fetching hf h a) ha

end Sys2Proof.Proofs
end

section
/-! SUPPORT. Fields of words: extracting a placed field, joining adjacent fields, and masks
(spec/30_encoding.md R63). -/

namespace Sys2Proof

variable {n m lo hi : Nat}

/-- A placed field is read back whole. -/
@[simp] theorem extractLsb'_place_same (v : BitVec n) (h : lo + n ≤ 16) :
    (place lo v).extractLsb' lo n = v := by
  ext j hj
  have hlt : lo + j < 16 := by omega
  simp [hj, hlt]

/-- A field placed elsewhere leaves no bit in this one. -/
@[simp] theorem extractLsb'_place_disjoint (v : BitVec m) (h : hi + m ≤ lo ∨ lo + n ≤ hi) :
    (place hi v).extractLsb' lo n = 0#n := by
  ext j hj
  rcases h with h | h
  · simp [BitVec.getLsbD_of_ge v (lo + j - hi) (by omega)]
  · simp [show ¬ hi ≤ lo + j by omega]

/-- Two adjacent fields of a word, each in its place, are one field. -/
theorem place_extractLsb'_or (w : Word) (h : hi = lo + n) :
    place hi (w.extractLsb' hi m) ||| place lo (w.extractLsb' lo n) =
      place lo (w.extractLsb' lo (m + n)) := by
  subst h
  ext j hj
  by_cases hhi : lo + n ≤ j
  · have hlt : (j - (lo + n) < m) ↔ (j - lo < m + n) := by omega
    simp [hlt, hhi, show lo ≤ j by omega, show lo + n + (j - (lo + n)) = j by omega,
      show ¬ j - lo < n by omega, show lo + (j - lo) = j by omega]
  · by_cases hlo : lo ≤ j
    · simp [hhi, hlo, show j - lo < n by omega, show j - lo < m + n by omega]
    · simp [hhi, hlo]

@[simp] theorem place_zero (w : Word) : place 0 w = w := by simp [place]

/-- A mask that holds every bit of a field leaves the field alone. -/
theorem extractLsb'_and_mask (w : Word) {mask : Word}
    (hm : mask.extractLsb' lo n = BitVec.allOnes n) :
    (w &&& mask).extractLsb' lo n = w.extractLsb' lo n := by
  rw [BitVec.extractLsb'_and, hm, BitVec.and_allOnes]

/-- A field that the mask holds, read off the masked word. -/
theorem extractLsb'_of_and_eq {w mask c : Word} {f : BitVec n} (h : w &&& mask = c)
    (hm : mask.extractLsb' lo n = BitVec.allOnes n ∧ c.extractLsb' lo n = f) :
    w.extractLsb' lo n = f := by
  obtain ⟨hmask, hfield⟩ := hm
  rw [← extractLsb'_and_mask w hmask, h, hfield]

/-- Words that agree under a mask agree in every field the mask holds. -/
theorem extractLsb'_congr {w v mask : Word} (h : w &&& mask = v &&& mask)
    (hm : mask.extractLsb' lo n = BitVec.allOnes n) : w.extractLsb' lo n = v.extractLsb' lo n := by
  rw [← extractLsb'_and_mask w hm, h, extractLsb'_and_mask v hm]

end Sys2Proof
end

section
/-! SUPPORT. The decoder, one case per instruction, and the fields of encoded words
(spec/30_encoding.md R62, R63, R66). -/

namespace Sys2Proof

/-- What a word stands for, said by its opcode ir[15:12] (R62), its mode bit where the opcode has one
(R66), and its format's fields (R63). -/
inductive Decodes (w : Word) : Instr → Prop where
  | br (hop : w.extractLsb' 12 4 = 0b0000#4) : Decodes w (.br (fieldNzp w) (fieldOff9 w))
  | addReg (hop : w.extractLsb' 12 4 = 0b0001#4) (hmode : w.extractLsb' 5 1 = 0b0#1) :
      Decodes w (.addReg (fieldDr w) (fieldSr1 w) (fieldSr2 w))
  | addImm (hop : w.extractLsb' 12 4 = 0b0001#4) (hmode : w.extractLsb' 5 1 = 0b1#1) :
      Decodes w (.addImm (fieldDr w) (fieldSr1 w) (fieldImm5 w))
  | ld (hop : w.extractLsb' 12 4 = 0b0010#4) : Decodes w (.ld (fieldDr w) (fieldOff9 w))
  | st (hop : w.extractLsb' 12 4 = 0b0011#4) : Decodes w (.st (fieldDr w) (fieldOff9 w))
  | jsr (hop : w.extractLsb' 12 4 = 0b0100#4) (hmode : w.extractLsb' 11 1 = 0b1#1) :
      Decodes w (.jsr (fieldOff11 w))
  | jsrr (hop : w.extractLsb' 12 4 = 0b0100#4) (hmode : w.extractLsb' 11 1 = 0b0#1) :
      Decodes w (.jsrr (fieldSr1 w))
  | andReg (hop : w.extractLsb' 12 4 = 0b0101#4) (hmode : w.extractLsb' 5 1 = 0b0#1) :
      Decodes w (.andReg (fieldDr w) (fieldSr1 w) (fieldSr2 w))
  | andImm (hop : w.extractLsb' 12 4 = 0b0101#4) (hmode : w.extractLsb' 5 1 = 0b1#1) :
      Decodes w (.andImm (fieldDr w) (fieldSr1 w) (fieldImm5 w))
  | ldr (hop : w.extractLsb' 12 4 = 0b0110#4) :
      Decodes w (.ldr (fieldDr w) (fieldSr1 w) (fieldOff6 w))
  | str (hop : w.extractLsb' 12 4 = 0b0111#4) :
      Decodes w (.str (fieldDr w) (fieldSr1 w) (fieldOff6 w))
  | rti (hop : w.extractLsb' 12 4 = 0b1000#4) : Decodes w .rti
  | notReg (hop : w.extractLsb' 12 4 = 0b1001#4) : Decodes w (.notReg (fieldDr w) (fieldSr1 w))
  | ldi (hop : w.extractLsb' 12 4 = 0b1010#4) : Decodes w (.ldi (fieldDr w) (fieldOff9 w))
  | sti (hop : w.extractLsb' 12 4 = 0b1011#4) : Decodes w (.sti (fieldDr w) (fieldOff9 w))
  | jmp (hop : w.extractLsb' 12 4 = 0b1100#4) : Decodes w (.jmp (fieldSr1 w))
  | res (hop : w.extractLsb' 12 4 = 0b1101#4) : Decodes w .res
  | lea (hop : w.extractLsb' 12 4 = 0b1110#4) : Decodes w (.lea (fieldDr w) (fieldOff9 w))
  | trap (hop : w.extractLsb' 12 4 = 0b1111#4) : Decodes w (.trap (fieldVect w))

/-- The bits the decoder looks at, as bits of the opcode and of the two mode fields. -/
theorem getLsbD_eq_opcode_mode (w : Word) :
    w.getLsbD 15 = (w.extractLsb' 12 4).getLsbD 3 ∧ w.getLsbD 14 = (w.extractLsb' 12 4).getLsbD 2 ∧
    w.getLsbD 13 = (w.extractLsb' 12 4).getLsbD 1 ∧ w.getLsbD 12 = (w.extractLsb' 12 4).getLsbD 0 ∧
    w.getLsbD 5 = (w.extractLsb' 5 1).getLsbD 0 ∧
    w.getLsbD 11 = (w.extractLsb' 11 1).getLsbD 0 := by
  simp

/-- The decoder answers the instruction its word stands for. -/
theorem Decodes.decode_eq {w : Word} {i : Instr} (h : Decodes w i) : decode w = i := by
  obtain ⟨h15, h14, h13, h12, h5, h11⟩ := getLsbD_eq_opcode_mode w
  cases h
  case addReg hop hmode | addImm hop hmode | andReg hop hmode | andImm hop hmode =>
    rw [decode, h15, h14, h13, h12, hop, h5, hmode]; rfl
  case jsr hop hmode | jsrr hop hmode =>
    rw [decode, h15, h14, h13, h12, hop, h11, hmode]; rfl
  case br hop | ld hop | st hop | ldr hop | str hop | rti hop | notReg hop | ldi hop | sti hop |
      jmp hop | res hop | lea hop | trap hop =>
    rw [decode, h15, h14, h13, h12, hop]; rfl

/-- Every word stands for an instruction (R69). -/
theorem exists_decodes (w : Word) : ∃ i, Decodes w i := by
  have hops : ∀ op : BitVec 4, op = 0b0000#4 ∨ op = 0b0001#4 ∨ op = 0b0010#4 ∨ op = 0b0011#4 ∨
      op = 0b0100#4 ∨ op = 0b0101#4 ∨ op = 0b0110#4 ∨ op = 0b0111#4 ∨ op = 0b1000#4 ∨
      op = 0b1001#4 ∨ op = 0b1010#4 ∨ op = 0b1011#4 ∨ op = 0b1100#4 ∨ op = 0b1101#4 ∨
      op = 0b1110#4 ∨ op = 0b1111#4 := by decide
  have hmodes : ∀ mode : BitVec 1, mode = 0b0#1 ∨ mode = 0b1#1 := by decide
  rcases hops (w.extractLsb' 12 4) with h | h | h | h | h | h | h | h | h | h | h | h | h | h | h | h
  · exact ⟨_, .br h⟩
  · exact (hmodes (w.extractLsb' 5 1)).elim (⟨_, .addReg h ·⟩) (⟨_, .addImm h ·⟩)
  · exact ⟨_, .ld h⟩
  · exact ⟨_, .st h⟩
  · exact (hmodes (w.extractLsb' 11 1)).elim (⟨_, .jsrr h ·⟩) (⟨_, .jsr h ·⟩)
  · exact (hmodes (w.extractLsb' 5 1)).elim (⟨_, .andReg h ·⟩) (⟨_, .andImm h ·⟩)
  · exact ⟨_, .ldr h⟩
  · exact ⟨_, .str h⟩
  · exact ⟨_, .rti h⟩
  · exact ⟨_, .notReg h⟩
  · exact ⟨_, .ldi h⟩
  · exact ⟨_, .sti h⟩
  · exact ⟨_, .jmp h⟩
  · exact ⟨_, .res h⟩
  · exact ⟨_, .lea h⟩
  · exact ⟨_, .trap h⟩

theorem decodes_iff {w : Word} {i : Instr} : Decodes w i ↔ decode w = i := by
  refine ⟨Decodes.decode_eq, ?_⟩
  rintro rfl
  obtain ⟨i, h⟩ := exists_decodes w
  exact h.decode_eq.symm ▸ h

theorem decodes_decode (w : Word) : Decodes w (decode w) := decodes_iff.mpr rfl

/-- R62's map, from the instruction back to the opcode. -/
theorem Decodes.opcode {w : Word} {i : Instr} (h : Decodes w i) :
    w.extractLsb' 12 4 = Laws.opcodeOf i := by
  cases h <;> assumption

/-! The fields of R63's formats, as the encoder writes them. -/

section
variable (op : BitVec 4) (dr sr1 sr2 : Reg)

@[simp] theorem fields_encodeOpr :
    fieldDr (encodeOpr op dr sr1 sr2) = dr ∧ fieldSr1 (encodeOpr op dr sr1 sr2) = sr1 ∧
    (encodeOpr op dr sr1 sr2).extractLsb' 5 1 = 0b0#1 ∧
    fieldSr2 (encodeOpr op dr sr1 sr2) = sr2 := by
  simp [encodeOpr, fieldDr, fieldSr1, fieldSr2, BitVec.extractLsb'_or]

@[simp] theorem fields_encodeOpi (imm : BitVec 5) :
    fieldDr (encodeOpi op dr sr1 imm) = dr ∧ fieldSr1 (encodeOpi op dr sr1 imm) = sr1 ∧
    (encodeOpi op dr sr1 imm).extractLsb' 5 1 = 0b1#1 ∧
    fieldImm5 (encodeOpi op dr sr1 imm) = imm := by
  simp [encodeOpi, fieldDr, fieldSr1, fieldImm5, BitVec.extractLsb'_or]

/-- BR's condition bits stand where the other instructions of the format have a register. -/
@[simp] theorem fields_encodePc9 (f : BitVec 3) (off : BitVec 9) :
    fieldNzp (encodePc9 op f off) = f ∧ fieldDr (encodePc9 op f off) = Reg.ofField f ∧
    fieldOff9 (encodePc9 op f off) = off := by
  simp [encodePc9, fieldNzp, fieldDr, fieldOff9, BitVec.extractLsb'_or]

@[simp] theorem fields_encodeBase6 (off : BitVec 6) :
    fieldDr (encodeBase6 op dr sr1 off) = dr ∧ fieldSr1 (encodeBase6 op dr sr1 off) = sr1 ∧
    fieldOff6 (encodeBase6 op dr sr1 off) = off := by
  simp [encodeBase6, fieldDr, fieldSr1, fieldOff6, BitVec.extractLsb'_or]

@[simp] theorem fields_encodeNot :
    fieldDr (encodeNot dr sr1) = dr ∧ fieldSr1 (encodeNot dr sr1) = sr1 := by
  simp [encodeNot, fieldDr, fieldSr1, BitVec.extractLsb'_or]

@[simp] theorem fields_encodeBase :
    (encodeBase op sr1).extractLsb' 11 1 = 0b0#1 ∧ fieldSr1 (encodeBase op sr1) = sr1 := by
  -- The mode bit ir[11] lies in the zeros the format writes to ir[11:9].
  have hmode : (place 9 0b000#3).extractLsb' 11 1 = 0b0#1 := by decide
  simp [encodeBase, fieldSr1, BitVec.extractLsb'_or, hmode]

@[simp] theorem fields_encodeJsr (off : BitVec 11) :
    (encodeJsr off).extractLsb' 11 1 = 0b1#1 ∧ fieldOff11 (encodeJsr off) = off := by
  simp [encodeJsr, fieldOff11, BitVec.extractLsb'_or]

@[simp] theorem fieldVect_encodeTrap (v : Byte) : fieldVect (encodeTrap v) = v := by
  simp [encodeTrap, fieldVect, BitVec.extractLsb'_or]

end

/-- The laws of the opcode field, for every instruction. -/
theorem opcodeField_statement : ∀ i : Instr, Laws.OpcodeField.Statement i
  | .br .. => Laws.OpcodeField.br ..
  | .addReg .. => Laws.OpcodeField.addReg ..
  | .addImm .. => Laws.OpcodeField.addImm ..
  | .ld .. => Laws.OpcodeField.ld ..
  | .st .. => Laws.OpcodeField.st ..
  | .jsr .. => Laws.OpcodeField.jsr ..
  | .jsrr .. => Laws.OpcodeField.jsrr ..
  | .andReg .. => Laws.OpcodeField.andReg ..
  | .andImm .. => Laws.OpcodeField.andImm ..
  | .ldr .. => Laws.OpcodeField.ldr ..
  | .str .. => Laws.OpcodeField.str ..
  | .rti => Laws.OpcodeField.rti
  | .notReg .. => Laws.OpcodeField.notReg ..
  | .ldi .. => Laws.OpcodeField.ldi ..
  | .sti .. => Laws.OpcodeField.sti ..
  | .jmp .. => Laws.OpcodeField.jmp ..
  | .res => Laws.OpcodeField.res
  | .lea .. => Laws.OpcodeField.lea ..
  | .trap .. => Laws.OpcodeField.trap ..

/-- The encoder is undone by the decoder: opcode and mode bit choose the case, and each field is read
back whole. -/
theorem decode_encode (i : Instr) : decode (encode i) = i := by
  obtain ⟨hop, _⟩ := opcodeField_statement i
  cases i with
  | br => exact (Decodes.br hop).decode_eq.trans (by simp [encode])
  | addReg => exact (Decodes.addReg hop (by simp [encode])).decode_eq.trans (by simp [encode])
  | addImm => exact (Decodes.addImm hop (by simp [encode])).decode_eq.trans (by simp [encode])
  | ld => exact (Decodes.ld hop).decode_eq.trans (by simp [encode])
  | st => exact (Decodes.st hop).decode_eq.trans (by simp [encode])
  | jsr => exact (Decodes.jsr hop (by simp [encode])).decode_eq.trans (by simp [encode])
  | jsrr => exact (Decodes.jsrr hop (by simp [encode])).decode_eq.trans (by simp [encode])
  | andReg => exact (Decodes.andReg hop (by simp [encode])).decode_eq.trans (by simp [encode])
  | andImm => exact (Decodes.andImm hop (by simp [encode])).decode_eq.trans (by simp [encode])
  | ldr => exact (Decodes.ldr hop).decode_eq.trans (by simp [encode])
  | str => exact (Decodes.str hop).decode_eq.trans (by simp [encode])
  | rti => exact (Decodes.rti hop).decode_eq
  | notReg => exact (Decodes.notReg hop).decode_eq.trans (by simp [encode])
  | ldi => exact (Decodes.ldi hop).decode_eq.trans (by simp [encode])
  | sti => exact (Decodes.sti hop).decode_eq.trans (by simp [encode])
  | jmp => exact (Decodes.jmp hop).decode_eq.trans (by simp [encode])
  | res => exact (Decodes.res hop).decode_eq
  | lea => exact (Decodes.lea hop).decode_eq.trans (by simp [encode])
  | trap => exact (Decodes.trap hop).decode_eq.trans (by simp [encode])

end Sys2Proof
end

section
/-! SUPPORT. The bits each format ignores: decoding does not read them (spec/30_encoding.md R68). -/

namespace Sys2Proof

variable {w v mask : Word}

theorem fieldDr_congr (h : w &&& mask = v &&& mask)
    (hm : mask.extractLsb' 9 3 = BitVec.allOnes 3) : fieldDr w = fieldDr v :=
  congrArg Reg.ofField (extractLsb'_congr h hm)

theorem fieldSr1_congr (h : w &&& mask = v &&& mask)
    (hm : mask.extractLsb' 6 3 = BitVec.allOnes 3) : fieldSr1 w = fieldSr1 v :=
  congrArg Reg.ofField (extractLsb'_congr h hm)

theorem fieldSr2_congr (h : w &&& mask = v &&& mask)
    (hm : mask.extractLsb' 0 3 = BitVec.allOnes 3) : fieldSr2 w = fieldSr2 v :=
  congrArg Reg.ofField (extractLsb'_congr h hm)

/-- ADD and AND, register form, ignore ir[4:3]. -/
theorem decode_congr_opr (hop : w.extractLsb' 12 4 = 0b0001#4 ∨ w.extractLsb' 12 4 = 0b0101#4)
    (hmode : w.extractLsb' 5 1 = 0b0#1) (h : w &&& 0xFFE7#16 = v &&& 0xFFE7#16) :
    decode w = decode v := by
  have hvop : w.extractLsb' 12 4 = v.extractLsb' 12 4 := extractLsb'_congr h (by decide)
  have hvmode : v.extractLsb' 5 1 = 0b0#1 := (extractLsb'_congr h (by decide)).symm.trans hmode
  have hdr : fieldDr w = fieldDr v := fieldDr_congr h (by decide)
  have hsr1 : fieldSr1 w = fieldSr1 v := fieldSr1_congr h (by decide)
  have hsr2 : fieldSr2 w = fieldSr2 v := fieldSr2_congr h (by decide)
  rcases hop with hop | hop <;> have hop' := hvop.symm.trans hop
  · rw [(Decodes.addReg hop hmode).decode_eq, (Decodes.addReg hop' hvmode).decode_eq, hdr, hsr1,
      hsr2]
  · rw [(Decodes.andReg hop hmode).decode_eq, (Decodes.andReg hop' hvmode).decode_eq, hdr, hsr1,
      hsr2]

/-- NOT ignores ir[5:0]. -/
theorem decode_congr_not (hop : w.extractLsb' 12 4 = 0b1001#4)
    (h : w &&& 0xFFC0#16 = v &&& 0xFFC0#16) : decode w = decode v := by
  have hvop : v.extractLsb' 12 4 = 0b1001#4 := (extractLsb'_congr h (by decide)).symm.trans hop
  rw [(Decodes.notReg hop).decode_eq, (Decodes.notReg hvop).decode_eq,
    fieldDr_congr h (by decide), fieldSr1_congr h (by decide)]

/-- JMP ignores ir[11:9] and ir[5:0]. -/
theorem decode_congr_jmp (hop : w.extractLsb' 12 4 = 0b1100#4)
    (h : w &&& 0xF1C0#16 = v &&& 0xF1C0#16) : decode w = decode v := by
  have hvop : v.extractLsb' 12 4 = 0b1100#4 := (extractLsb'_congr h (by decide)).symm.trans hop
  rw [(Decodes.jmp hop).decode_eq, (Decodes.jmp hvop).decode_eq, fieldSr1_congr h (by decide)]

/-- JSRR ignores ir[10:9] and ir[5:0]. -/
theorem decode_congr_jsrr (hop : w.extractLsb' 12 4 = 0b0100#4)
    (hmode : w.extractLsb' 11 1 = 0b0#1) (h : w &&& 0xF9C0#16 = v &&& 0xF9C0#16) :
    decode w = decode v := by
  have hvop : v.extractLsb' 12 4 = 0b0100#4 := (extractLsb'_congr h (by decide)).symm.trans hop
  have hvmode : v.extractLsb' 11 1 = 0b0#1 := (extractLsb'_congr h (by decide)).symm.trans hmode
  rw [(Decodes.jsrr hop hmode).decode_eq, (Decodes.jsrr hvop hvmode).decode_eq,
    fieldSr1_congr h (by decide)]

/-- TRAP ignores ir[11:8]. -/
theorem decode_congr_trap (hop : w.extractLsb' 12 4 = 0b1111#4)
    (h : w &&& 0xF0FF#16 = v &&& 0xF0FF#16) : decode w = decode v := by
  have hvop : v.extractLsb' 12 4 = 0b1111#4 := (extractLsb'_congr h (by decide)).symm.trans hop
  have hvect : fieldVect w = fieldVect v := extractLsb'_congr h (by decide)
  rw [(Decodes.trap hop).decode_eq, (Decodes.trap hvop).decode_eq, hvect]

/-- RTI and RES ignore every bit but the opcode's. -/
theorem decode_congr_none (hop : w.extractLsb' 12 4 = 0b1000#4 ∨ w.extractLsb' 12 4 = 0b1101#4)
    (h : w &&& 0xF000#16 = v &&& 0xF000#16) : decode w = decode v := by
  have hvop : w.extractLsb' 12 4 = v.extractLsb' 12 4 := extractLsb'_congr h (by decide)
  rcases hop with hop | hop
  · rw [(Decodes.rti hop).decode_eq, (Decodes.rti (hvop.symm.trans hop)).decode_eq]
  · rw [(Decodes.res hop).decode_eq, (Decodes.res (hvop.symm.trans hop)).decode_eq]

end Sys2Proof
end

section
/-! SUPPORT. Canonical words (spec/30_encoding.md R63): a word is rebuilt from the fields its format
reads and the canonical values of the bits it ignores. -/

namespace Sys2Proof

variable {w : Word} {op : BitVec 4}

/-- R63's canonical values of the bits that the format of an instruction ignores; RES has none. -/
def IgnoredBitsCanonical (w : Word) : Instr → Prop
  | .addReg .. | .andReg .. => w.extractLsb' 3 2 = 0b00#2
  | .notReg .. => w.extractLsb' 0 6 = 0b111111#6
  | .jmp .. => w.extractLsb' 9 3 = 0b000#3 ∧ w.extractLsb' 0 6 = 0b000000#6
  | .jsrr .. => w.extractLsb' 9 2 = 0b00#2 ∧ w.extractLsb' 0 6 = 0b000000#6
  | .trap .. => w.extractLsb' 8 4 = 0b0000#4
  | .rti => w.extractLsb' 0 12 = 0x000#12
  | .br .. | .ld .. | .st .. | .ldi .. | .sti .. | .lea .. | .res => True
  | .addImm .. | .andImm .. | .jsr .. | .ldr .. | .str .. => True

/-- What `canonicalWord` asks of a word, by the instruction it decodes to. -/
theorem Decodes.canonicalWord_iff {i : Instr} (h : Decodes w i) :
    canonicalWord w = true ↔ IgnoredBitsCanonical w i := by
  obtain ⟨h15, h14, h13, h12, h5, h11⟩ := getLsbD_eq_opcode_mode w
  cases h
  case addReg hop hmode | addImm hop hmode | andReg hop hmode | andImm hop hmode =>
    rw [canonicalWord, h15, h14, h13, h12, hop, h5, hmode]
    simp [IgnoredBitsCanonical]
  case jsr hop hmode | jsrr hop hmode =>
    rw [canonicalWord, h15, h14, h13, h12, hop, h11, hmode]
    simp [IgnoredBitsCanonical]
  case br hop | ld hop | st hop | ldr hop | str hop | rti hop | notReg hop | ldi hop | sti hop |
      jmp hop | res hop | lea hop | trap hop =>
    rw [canonicalWord, h15, h14, h13, h12, hop]
    simp [IgnoredBitsCanonical]

theorem encodeOpr_fields (hop : w.extractLsb' 12 4 = op) (hmode : w.extractLsb' 5 1 = 0b0#1)
    (hx : w.extractLsb' 3 2 = 0b00#2) :
    encodeOpr op (fieldDr w) (fieldSr1 w) (fieldSr2 w) = w := by
  rw [encodeOpr, ← hop, ← hmode, ← hx]
  simp [fieldDr, fieldSr1, fieldSr2, place_extractLsb'_or]

theorem encodeOpi_fields (hop : w.extractLsb' 12 4 = op) (hmode : w.extractLsb' 5 1 = 0b1#1) :
    encodeOpi op (fieldDr w) (fieldSr1 w) (fieldImm5 w) = w := by
  rw [encodeOpi, ← hop, ← hmode]
  simp [fieldDr, fieldSr1, fieldImm5, place_extractLsb'_or]

theorem encodePc9_fields (hop : w.extractLsb' 12 4 = op) :
    encodePc9 op (fieldNzp w) (fieldOff9 w) = w := by
  rw [encodePc9, ← hop]
  simp [fieldNzp, fieldOff9, place_extractLsb'_or]

/-- DR has the place of BR's condition bits. -/
@[simp] theorem field_fieldDr (w : Word) : (fieldDr w).field = fieldNzp w :=
  Reg.field_ofField _

theorem encodeBase6_fields (hop : w.extractLsb' 12 4 = op) :
    encodeBase6 op (fieldDr w) (fieldSr1 w) (fieldOff6 w) = w := by
  rw [encodeBase6, ← hop]
  simp [fieldNzp, fieldSr1, fieldOff6, place_extractLsb'_or]

theorem encodeNot_fields (hop : w.extractLsb' 12 4 = 0b1001#4)
    (hx : w.extractLsb' 0 6 = 0b111111#6) : encodeNot (fieldDr w) (fieldSr1 w) = w := by
  rw [encodeNot, ← hop, ← hx]
  simp [fieldNzp, fieldSr1, place_extractLsb'_or]

theorem encodeBase_fields (hop : w.extractLsb' 12 4 = op) (hx : w.extractLsb' 9 3 = 0b000#3)
    (hy : w.extractLsb' 0 6 = 0b000000#6) : encodeBase op (fieldSr1 w) = w := by
  rw [encodeBase, ← hop, ← hx, ← hy]
  simp [fieldSr1, place_extractLsb'_or]

theorem encodeJsr_fields (hop : w.extractLsb' 12 4 = 0b0100#4)
    (hmode : w.extractLsb' 11 1 = 0b1#1) : encodeJsr (fieldOff11 w) = w := by
  rw [encodeJsr, ← hop, ← hmode]
  simp [fieldOff11, place_extractLsb'_or]

theorem encodeTrap_fields (hop : w.extractLsb' 12 4 = 0b1111#4)
    (hx : w.extractLsb' 8 4 = 0b0000#4) : encodeTrap (fieldVect w) = w := by
  rw [encodeTrap, ← hop, ← hx]
  simp [fieldVect, place_extractLsb'_or]

theorem encodeNone_fields (hop : w.extractLsb' 12 4 = op) (hx : w.extractLsb' 0 12 = 0x000#12) :
    encodeNone op = w := by
  rw [encodeNone, ← hop, ← hx]
  simp [place_extractLsb'_or]

/-- JSRR's mode bit and its ignored ir[10:9] are ir[11:9] of the format it shares with JMP. -/
theorem extractLsb'_nzp_eq_zero (hmode : w.extractLsb' 11 1 = 0b0#1)
    (hx : w.extractLsb' 9 2 = 0b00#2) : w.extractLsb' 9 3 = 0b000#3 := by
  have hjoin : w.extractLsb' 11 1 ++ w.extractLsb' 9 2 = w.extractLsb' 9 3 :=
    BitVec.extractLsb'_append_extractLsb'_eq_extractLsb' rfl
  rw [← hjoin, hmode, hx]
  rfl

/-- A canonical word is what its instruction encodes to, RES apart. -/
theorem Decodes.encode_eq {i : Instr} (h : Decodes w i) (hc : canonicalWord w = true)
    (hres : i ≠ .res) : encode i = w := by
  have hx := h.canonicalWord_iff.mp hc
  cases h with
  | br hop => exact encodePc9_fields hop
  | ld hop | st hop | ldi hop | sti hop | lea hop =>
    rw [encode, field_fieldDr]
    exact encodePc9_fields hop
  | addReg hop hmode | andReg hop hmode => exact encodeOpr_fields hop hmode hx
  | addImm hop hmode | andImm hop hmode => exact encodeOpi_fields hop hmode
  | jsr hop hmode => exact encodeJsr_fields hop hmode
  | jsrr hop hmode =>
    obtain ⟨hmid, hlow⟩ := hx
    exact encodeBase_fields hop (extractLsb'_nzp_eq_zero hmode hmid) hlow
  | ldr hop | str hop => exact encodeBase6_fields hop
  | rti hop => exact encodeNone_fields hop hx
  | notReg hop => exact encodeNot_fields hop hx
  | jmp hop =>
    obtain ⟨hhigh, hlow⟩ := hx
    exact encodeBase_fields hop hhigh hlow
  | res hop => exact absurd rfl hres
  | trap hop => exact encodeTrap_fields hop hx

end Sys2Proof
end

section
/-! The statements about the encoding (spec/30_encoding.md). -/

namespace Sys2Proof.Proofs

open Sys2Proof.Machine Sys2Proof.Claims

/-- The opcode field as a number (R61). -/
theorem field_opcode (w : Word) : field w 15 12 = (w.extractLsb' 12 4).toNat := by
  simp [field, Nat.shiftRight_eq_div_pow]

theorem opcodeNumber_eq (i : Instr) : opcodeNumber i = (Laws.opcodeOf i).toNat := by
  cases i <;> rfl

/-- Settles O31: opcode and mode bit of an encoding choose the decoder's case, which reads back each
field whole (`decode_encode`). -/
theorem decodeOfEncodeIsTheInstruction : Obligations.DecodeOfEncodeIsTheInstruction :=
  fun i _ => decode_encode i

/-- Settles O29: each case of the decoder has the opcode of R62's map. -/
theorem opcodeFieldSelectsTheHandler : Obligations.OpcodeFieldSelectsTheHandler := by
  intro w
  rw [field_opcode, (decodes_decode w).opcode, opcodeNumber_eq]

/-- Settles O30: the mask of each clause holds the opcode, the mode bit and the fields that the
decoder reads. -/
theorem ignoredBitsDoNotMatter : Obligations.IgnoredBitsDoNotMatter := by
  intro w v
  refine ⟨fun hw h => ?_, fun hw h => ?_, fun hw h => ?_, fun hw h => ?_, fun hw h => ?_,
    fun hw h => ?_, fun hw h => ?_, fun hw h => ?_⟩
  · exact decode_congr_opr (.inl (extractLsb'_of_and_eq hw (by decide)))
      (extractLsb'_of_and_eq hw (by decide)) h
  · exact decode_congr_opr (.inr (extractLsb'_of_and_eq hw (by decide)))
      (extractLsb'_of_and_eq hw (by decide)) h
  · exact decode_congr_not (extractLsb'_of_and_eq hw (by decide)) h
  · exact decode_congr_jmp (extractLsb'_of_and_eq hw (by decide)) h
  · exact decode_congr_jsrr (extractLsb'_of_and_eq hw (by decide))
      (extractLsb'_of_and_eq hw (by decide)) h
  · exact decode_congr_trap (extractLsb'_of_and_eq hw (by decide)) h
  · exact decode_congr_none (.inl (extractLsb'_of_and_eq hw (by decide))) h
  · exact decode_congr_none (.inr (extractLsb'_of_and_eq hw (by decide))) h

/-- Settles O32: the encoder puts back the fields the decoder read, and a canonical word holds the
encoder's values in the rest. -/
theorem encodeOfDecodeIsTheCanonicalWord : Obligations.EncodeOfDecodeIsTheCanonicalWord := by
  intro w hc hres
  refine (decodes_decode w).encode_eq hc fun h => hres ?_
  rw [← opcodeFieldSelectsTheHandler w, h]
  rfl

/-- Settles O28: twelve closed words, decoded. -/
theorem specWordsDecode : Obligations.SpecWordsDecode := by
  unfold Obligations.SpecWordsDecode
  decide

/-- Settles O36: the state after the fetch is `State.fetch`, and the loop test is the identity or
the halt. -/
theorem stepRunsTheDecodedInstruction : Obligations.StepRunsTheDecodedInstruction := by
  rintro s i hf rfl
  obtain ⟨t, ht⟩ := exec_answers_next s.fetch s.current
  have hstep : step s = .next t.loopTest := step_of_exec hf ht
  refine ⟨t, ht, fun hr => ?_, fun hr => ?_⟩
  · rw [hstep, t.loopTest_of_running hr]
  · rw [hstep, t.loopTest_of_stopped hr]
    rfl

end Sys2Proof.Proofs
end

section
/-! SUPPORT. The fields of a word as the numbers of the statements (spec/00_scope.md R7,
spec/30_encoding.md R64). -/

namespace Sys2Proof

open Sys2Proof.Claims

theorem field_eq_toNat_extractLsb' (w : Word) (hi lo : Nat) :
    field w hi lo = (w.extractLsb' lo (hi + 1 - lo)).toNat := by
  simp [field, Nat.shiftRight_eq_div_pow]

theorem Reg.num_ofField (b : BitVec 3) : (Reg.ofField b).num = b.toNat := by
  rw [← Reg.field_toNat, Reg.field_ofField]

theorem num_fieldDr (w : Word) : (fieldDr w).num = field w 11 9 := by
  rw [fieldDr, Reg.num_ofField, field_eq_toNat_extractLsb']

theorem num_fieldSr1 (w : Word) : (fieldSr1 w).num = field w 8 6 := by
  rw [fieldSr1, Reg.num_ofField, field_eq_toNat_extractLsb']

theorem num_fieldSr2 (w : Word) : (fieldSr2 w).num = field w 2 0 := by
  rw [fieldSr2, Reg.num_ofField, field_eq_toNat_extractLsb']

theorem toNat_fieldImm5 (w : Word) : (fieldImm5 w).toNat = field w 4 0 := by
  rw [fieldImm5, field_eq_toNat_extractLsb']

end Sys2Proof
end

section
/-! SUPPORT. The frame of an instruction with a result register, and its sign-extended operand
(spec/10_state.md R25, R26; spec/00_scope.md R9; spec/20_memory.md R44). -/

namespace Sys2Proof.Machine

open Sys2Proof.Claims

section
variable (s : State) (dr : Reg) (v : Word)

theorem State.flagsOf_writeResult :
    FlagsOf ((s.writeResult dr v).reg dr) (s.writeResult dr v).cond := by
  simpa using flagsOf_condOf v

theorem State.resultFrame_writeResult : ResultFrame dr s (s.writeResult dr v) := by
  have hregs : SameRegsExcept [dr] s (s.writeResult dr v) := fun r hr =>
    s.reg_writeResult_other dr r v (List.ne_of_not_mem_cons hr)
  exact ⟨hregs, rfl, fun a => s.memRead_writeResult a dr v, ⟨rfl, rfl, rfl⟩, ⟨rfl, rfl, rfl⟩,
    rfl, rfl, rfl⟩

end

section
variable {n : Nat}

/-- Adding a sign-extended field adds the signed number it stands for, mod 2^16. -/
theorem isSum_add_sext (a : Word) (v : BitVec n) (hn : n ≤ 16) : IsSum (a + sext v) a v.toInt := by
  rw [IsSum, BitVec.toNat_add, ← toInt_sext v hn, BitVec.toInt_eq_toNat_cond]
  split <;> omega

/-- The bits of `sext_N`: those of the field, then its sign bit over and over. -/
theorem getLsbD_sext (v : BitVec (n + 1)) {j : Nat} (hj : j < 16) :
    (sext v).getLsbD j = v.getLsbD (min j n) := by
  rw [sext, BitVec.getLsbD_signExtend, BitVec.msb_eq_getLsbD_last]
  by_cases hlow : j < n + 1
  · simp [hj, hlow, Nat.min_eq_left (Nat.le_of_lt_succ hlow)]
  · simp [hj, hlow, Nat.min_eq_right (show n ≤ j by omega)]

theorem getLsbD_and_sext (a : Word) (v : BitVec (n + 1)) (j : Nat) :
    (a &&& sext v).getLsbD j = (a.getLsbD j && v.getLsbD (min j n)) := by
  rw [BitVec.getLsbD_and]
  by_cases hj : j < 16
  · rw [getLsbD_sext v hj]
  · simp [BitVec.getLsbD_of_ge a j (by omega)]

end

end Sys2Proof.Machine
end

section
/-! The statements about the operate instructions (spec/40_operate.md). -/

namespace Sys2Proof.Proofs

open Sys2Proof.Machine Sys2Proof.Claims

/-- Settles O1: the format's masked bits choose the decoder's case, and the handler writes the sum as
its result. -/
theorem addRegisterWrapsAndSetsFlags : Obligations.AddRegisterWrapsAndSetsFlags := by
  refine ⟨fun w hw => ?_, fun dr sr1 sr2 s => ?_⟩
  · have hdec : Decodes w (.addReg (fieldDr w) (fieldSr1 w) (fieldSr2 w)) :=
      .addReg (extractLsb'_of_and_eq hw (by decide)) (extractLsb'_of_and_eq hw (by decide))
    exact ⟨_, _, _, hdec.decode_eq, num_fieldDr w, num_fieldSr1 w, num_fieldSr2 w⟩
  · refine ⟨s.writeResult dr (s.reg sr1 + s.reg sr2), rfl, ?_, s.flagsOf_writeResult ..,
      s.resultFrame_writeResult ..⟩
    rw [State.reg_writeResult_same, BitVec.toNat_add]

/-- Settles O2: as for the register form, with the immediate's signed value (`isSum_add_sext`). -/
theorem addImmediateSignExtendsAndSetsFlags : Obligations.AddImmediateSignExtendsAndSetsFlags := by
  refine ⟨fun w hw => ?_, fun dr sr1 imm s => ?_⟩
  · have hdec : Decodes w (.addImm (fieldDr w) (fieldSr1 w) (fieldImm5 w)) :=
      .addImm (extractLsb'_of_and_eq hw (by decide)) (extractLsb'_of_and_eq hw (by decide))
    exact ⟨_, _, _, hdec.decode_eq, num_fieldDr w, num_fieldSr1 w, toNat_fieldImm5 w⟩
  · refine ⟨s.writeResult dr (s.reg sr1 + sext imm), rfl, ?_, s.flagsOf_writeResult ..,
      s.resultFrame_writeResult ..⟩
    rw [State.reg_writeResult_same]
    exact isSum_add_sext _ _ (by decide)

/-- Settles O3: the result is the AND of the two words, read bit by bit. -/
theorem andRegisterIsBitwise : Obligations.AndRegisterIsBitwise := by
  refine ⟨fun w hw => ?_, fun dr sr1 sr2 s => ?_⟩
  · have hdec : Decodes w (.andReg (fieldDr w) (fieldSr1 w) (fieldSr2 w)) :=
      .andReg (extractLsb'_of_and_eq hw (by decide)) (extractLsb'_of_and_eq hw (by decide))
    exact ⟨_, _, _, hdec.decode_eq, num_fieldDr w, num_fieldSr1 w, num_fieldSr2 w⟩
  · refine ⟨s.writeResult dr (s.reg sr1 &&& s.reg sr2), rfl, fun j => ?_, s.flagsOf_writeResult ..,
      s.resultFrame_writeResult ..⟩
    rw [State.reg_writeResult_same, BitVec.getLsbD_and]

/-- Settles O4: as for the register form, with the immediate's bits (`getLsbD_and_sext`). -/
theorem andImmediateIsBitwise : Obligations.AndImmediateIsBitwise := by
  refine ⟨fun w hw => ?_, fun dr sr1 imm s => ?_⟩
  · have hdec : Decodes w (.andImm (fieldDr w) (fieldSr1 w) (fieldImm5 w)) :=
      .andImm (extractLsb'_of_and_eq hw (by decide)) (extractLsb'_of_and_eq hw (by decide))
    exact ⟨_, _, _, hdec.decode_eq, num_fieldDr w, num_fieldSr1 w, toNat_fieldImm5 w⟩
  · refine ⟨s.writeResult dr (s.reg sr1 &&& sext imm), rfl, fun j => ?_, s.flagsOf_writeResult ..,
      s.resultFrame_writeResult ..⟩
    rw [State.reg_writeResult_same, getLsbD_and_sext]

/-- Settles O5: a word and its complement add up to 65535. -/
theorem notComplements : Obligations.NotComplements := by
  refine ⟨fun w hw => ?_, fun dr sr s => ?_⟩
  · have hdec : Decodes w (.notReg (fieldDr w) (fieldSr1 w)) :=
      .notReg (extractLsb'_of_and_eq hw (by decide))
    exact ⟨_, _, hdec.decode_eq, num_fieldDr w, num_fieldSr1 w⟩
  · refine ⟨s.writeResult dr (~~~(s.reg sr)), rfl, ?_, s.flagsOf_writeResult ..,
      s.resultFrame_writeResult ..⟩
    rw [State.reg_writeResult_same, BitVec.toNat_not]

end Sys2Proof.Proofs
end


section
/-! SUPPORT. The fields of the control-transfer formats, the shared flag BR looks for, and the frame of
a control transfer (spec/30_encoding.md R63, R67; spec/41_control.md R110 to R113). -/

namespace Sys2Proof

open Sys2Proof.Claims

theorem toNat_fieldNzp (w : Word) : (fieldNzp w).toNat = field w 11 9 := by
  rw [fieldNzp, field_eq_toNat_extractLsb']

theorem toNat_fieldOff9 (w : Word) : (fieldOff9 w).toNat = field w 8 0 := by
  rw [fieldOff9, field_eq_toNat_extractLsb']

theorem toNat_fieldOff11 (w : Word) : (fieldOff11 w).toNat = field w 10 0 := by
  rw [fieldOff11, field_eq_toNat_extractLsb']

/-- The AND of two bit vectors is not 0 exactly when they share a set bit. -/
theorem and_ne_zero_iff_exists_getLsbD {n : Nat} (x y : BitVec n) :
    x &&& y ≠ 0#n ↔ ∃ j, x.getLsbD j = true ∧ y.getLsbD j = true := by
  constructor
  · contrapose!
    exact fun hnone => BitVec.eq_of_getLsbD_eq fun j _ => by simpa using hnone j
  · rintro ⟨j, hx, hy⟩ hzero
    have hbit : (x &&& y).getLsbD j = true := by rw [BitVec.getLsbD_and, hx, hy, Bool.and_true]
    simp [hzero] at hbit

end Sys2Proof

namespace Sys2Proof.Machine

open Sys2Proof.Claims

variable (s : State) (target : Word)

/-- BR writes PC alone, and where it is not taken it writes back what PC was. -/
theorem exec_br (nzp : BitVec 3) (off : BitVec 9) :
    exec (.br nzp off) s =
      .next (s.setPc (if nzp &&& s.cond ≠ 0b000#3 then s.pcRelative9 off else s.pc)) := by
  rw [exec, execBr]
  split <;> rfl

theorem State.transferFrame_setPc : TransferFrame [] s (s.setPc target) :=
  ⟨fun r _ => s.reg_setPc r target, rfl, fun a => s.memRead_setPc a target, ⟨rfl, rfl, rfl⟩,
    ⟨rfl, rfl, rfl⟩, rfl, rfl, rfl⟩

@[simp] theorem State.reg_link_same : s.link.reg .r7 = s.pc := s.reg_setReg_same .r7 s.pc

@[simp] theorem State.reg_link_other {r : Reg} (hr : r ≠ .r7) : s.link.reg r = s.reg r :=
  s.reg_setReg_other .r7 r s.pc hr

/-- A call's frame: R7 is the one register it writes. -/
theorem State.transferFrame_call : TransferFrame [.r7] s (s.link.setPc target) := by
  have hregs : SameRegsExcept [.r7] s (s.link.setPc target) := fun r hr => by
    rw [State.reg_setPc, s.reg_link_other (List.ne_of_not_mem_cons hr)]
  exact ⟨hregs, rfl, s.memRead_link, ⟨rfl, rfl, rfl⟩, ⟨rfl, rfl, rfl⟩, rfl, rfl, rfl⟩

end Sys2Proof.Machine
end

section
/-! The statements about control transfer (spec/41_control.md). -/

namespace Sys2Proof.Proofs

open Sys2Proof.Machine Sys2Proof.Claims

/-- Settles O6: the AND the handler tests is not 0 exactly on a shared set bit
(`and_ne_zero_iff_exists_getLsbD`). -/
theorem branchTakenExactlyOnSharedFlag : Obligations.BranchTakenExactlyOnSharedFlag := by
  refine ⟨fun w hw => ?_, fun nzp off s => ?_⟩
  · have hdec : Decodes w (.br (fieldNzp w) (fieldOff9 w)) :=
      .br (extractLsb'_of_and_eq hw (by decide))
    exact ⟨_, _, hdec.decode_eq, toNat_fieldNzp w, toNat_fieldOff9 w⟩
  · rw [← and_ne_zero_iff_exists_getLsbD]
    refine ⟨_, exec_br s nzp off, fun htaken => ?_, fun hnot => ?_, s.transferFrame_setPc _⟩
    · rw [State.setPc_pc, if_pos htaken]
      exact isSum_add_sext s.pc off (by decide)
    · rw [State.setPc_pc, if_neg hnot]

/-- Settles O7: the handler sets PC to the base register, and RET is the word of R7. -/
theorem jumpGoesToTheBaseRegister : Obligations.JumpGoesToTheBaseRegister := by
  refine ⟨fun w hw => ?_, by decide, fun base s => ?_⟩
  · have hdec : Decodes w (.jmp (fieldSr1 w)) := .jmp (extractLsb'_of_and_eq hw (by decide))
    exact ⟨_, hdec.decode_eq, num_fieldSr1 w⟩
  · exact ⟨s.setPc (s.reg base), rfl, rfl, s.transferFrame_setPc _⟩

/-- Settles O8: the link is PC_inc, and linking leaves the PC that the offset is added to. -/
theorem jsrLinksAndJumpsRelative : Obligations.JsrLinksAndJumpsRelative := by
  refine ⟨fun w hw => ?_, fun off s => ?_⟩
  · have hdec : Decodes w (.jsr (fieldOff11 w)) :=
      .jsr (extractLsb'_of_and_eq hw (by decide)) (extractLsb'_of_and_eq hw (by decide))
    exact ⟨_, hdec.decode_eq, toNat_fieldOff11 w⟩
  · have hsum : IsSum (s.link.pcRelative11 off) s.pc off.toInt :=
      isSum_add_sext s.pc off (by decide)
    exact ⟨s.link.setPc (s.link.pcRelative11 off), rfl, s.reg_link_same, hsum,
      s.transferFrame_call _⟩

/-- Settles O9: the base register is read after the link, which changes R7 alone (D6). -/
theorem jsrrReadsTheBaseAfterLinking : Obligations.JsrrReadsTheBaseAfterLinking := by
  refine ⟨fun w hw => ?_, fun base s => ?_⟩
  · have hdec : Decodes w (.jsrr (fieldSr1 w)) :=
      .jsrr (extractLsb'_of_and_eq hw (by decide)) (extractLsb'_of_and_eq hw (by decide))
    exact ⟨_, hdec.decode_eq, num_fieldSr1 w⟩
  · refine ⟨s.link.setPc (s.link.reg base), rfl, s.reg_link_same, fun hne => ?_, fun heq => ?_,
      s.transferFrame_call _⟩
    · exact s.reg_link_other hne
    · subst heq
      exact s.reg_link_same

end Sys2Proof.Proofs
end

section
/-! SUPPORT. The addresses of the load and store formats, what a result register takes, and the
frame of a store (spec/30_encoding.md R63; spec/42_load_store.md R120 to R127). -/

namespace Sys2Proof

open Sys2Proof.Claims

theorem toNat_fieldOff6 (w : Word) : (fieldOff6 w).toNat = field w 5 0 := by
  rw [fieldOff6, field_eq_toNat_extractLsb']

/-- A word of format PC9, with its fields as the numbers of the statements. -/
theorem Decodes.exists_pc9 {w : Word} {con : Reg → BitVec 9 → Instr}
    (h : Decodes w (con (fieldDr w) (fieldOff9 w))) :
    ∃ r off, decode w = con r off ∧ r.num = field w 11 9 ∧ off.toNat = field w 8 0 :=
  ⟨_, _, h.decode_eq, num_fieldDr w, toNat_fieldOff9 w⟩

/-- A word of format BASE6, with its fields as the numbers of the statements. -/
theorem Decodes.exists_base6 {w : Word} {con : Reg → Reg → BitVec 6 → Instr}
    (h : Decodes w (con (fieldDr w) (fieldSr1 w) (fieldOff6 w))) :
    ∃ r base off, decode w = con r base off ∧ r.num = field w 11 9 ∧ base.num = field w 8 6 ∧
      off.toNat = field w 5 0 :=
  ⟨_, _, _, h.decode_eq, num_fieldDr w, num_fieldSr1 w, toNat_fieldOff6 w⟩

end Sys2Proof

namespace Sys2Proof.Machine

open Sys2Proof.Claims

variable (s : State)

theorem State.isSum_pcRelative9 (off : BitVec 9) : IsSum (s.pcRelative9 off) s.pc off.toInt :=
  isSum_add_sext s.pc off (by decide)

theorem State.isSum_baseOffset (base : Reg) (off : BitVec 6) :
    IsSum (s.baseOffset base off) (s.reg base) off.toInt :=
  isSum_add_sext (s.reg base) off (by decide)

/-- What the three loads share once the cell is read: DR and COND follow it, and nothing else changes
(R120 to R122). -/
theorem State.reg_flags_frame_writeResult (dr : Reg) (v : Word) :
    (s.writeResult dr v).reg dr = v ∧
      FlagsOf ((s.writeResult dr v).reg dr) (s.writeResult dr v).cond ∧
      ResultFrame dr s (s.writeResult dr v) :=
  ⟨s.reg_writeResult_same dr v, s.flagsOf_writeResult dr v, s.resultFrame_writeResult dr v⟩

/-- Writing a result and replacing memory do not interfere. -/
theorem State.writeResult_with_mem (dr : Reg) (v : Word) (m : Memory) :
    State.writeResult { s with mem := m } dr v = { s.writeResult dr v with mem := m } := rfl

/-- LEA's address is formed from PC alone, so memory passes through (R123). -/
theorem exec_lea_with_mem (dr : Reg) (off : BitVec 9) (m : Memory) :
    exec (.lea dr off) { s with mem := m } =
      .next { s.writeResult dr (s.pcRelative9 off) with mem := m } :=
  congrArg Host.Outcome.next (s.writeResult_with_mem dr (s.pcRelative9 off) m)

/-- Storing a register writes its value to the one cell and changes nothing else (R124 to R126). -/
theorem State.storesOnly_memWrite (ea : Word) (sr : Reg) :
    StoresOnly ea sr s (s.memWrite ea (s.reg sr)) := by
  refine ⟨?_, fun r _ => s.reg_memWrite r ea _, rfl, rfl, ⟨rfl, rfl, rfl⟩, ⟨rfl, rfl, rfl⟩, rfl,
    rfl, rfl⟩
  rintro a rfl
  exact ⟨s.memRead_memWrite_same a _, fun b hb => s.memRead_memWrite_other a b _ hb⟩

end Sys2Proof.Machine
end

section
/-! The statements about loads and stores (spec/42_load_store.md). -/

namespace Sys2Proof.Proofs

open Sys2Proof.Machine Sys2Proof.Claims

/-- Settles O10: the handler's result is the cell at the PC-relative address. -/
theorem ldLoadsPcRelative : Obligations.LdLoadsPcRelative := by
  refine ⟨fun w hw => ?_, fun dr off s => ?_⟩
  · exact Decodes.exists_pc9 (.ld (extractLsb'_of_and_eq hw (by decide)))
  · exact ⟨s.writeResult dr (s.memRead (s.pcRelative9 off)), rfl, s.isSum_pcRelative9 off,
      s.reg_flags_frame_writeResult dr _⟩

/-- Settles O11: as for LD, with the cell that the pointer's value addresses. -/
theorem ldiLoadsThroughThePointer : Obligations.LdiLoadsThroughThePointer := by
  refine ⟨fun w hw => ?_, fun dr off s => ?_⟩
  · exact Decodes.exists_pc9 (.ldi (extractLsb'_of_and_eq hw (by decide)))
  · exact ⟨s.writeResult dr (s.memRead (s.indirect off)), rfl, s.isSum_pcRelative9 off,
      s.reg_flags_frame_writeResult dr _⟩

/-- Settles O12: the base register is read in `s`, before the write to DR, which may be the same. -/
theorem ldrLoadsFromBasePlusOffset : Obligations.LdrLoadsFromBasePlusOffset := by
  refine ⟨fun w hw => ?_, fun dr base off s => ?_⟩
  · exact Decodes.exists_base6 (.ldr (extractLsb'_of_and_eq hw (by decide)))
  · exact ⟨s.writeResult dr (s.memRead (s.baseOffset base off)), rfl, s.isSum_baseOffset base off,
      s.reg_flags_frame_writeResult dr _⟩

/-- Settles O13: the result is the address itself, and memory passes through the handler
(`exec_lea_with_mem`). -/
theorem leaComputesWithoutMemory : Obligations.LeaComputesWithoutMemory := by
  refine ⟨fun w hw => ?_, fun dr off s => ?_⟩
  · exact Decodes.exists_pc9 (.lea (extractLsb'_of_and_eq hw (by decide)))
  · refine ⟨s.writeResult dr (s.pcRelative9 off), rfl, ?_, s.flagsOf_writeResult ..,
      s.resultFrame_writeResult .., exec_lea_with_mem s dr off⟩
    rw [State.reg_writeResult_same]
    exact s.isSum_pcRelative9 off

/-- Settles O14: a store at the PC-relative address (`State.storesOnly_memWrite`). -/
theorem stStoresPcRelative : Obligations.StStoresPcRelative := by
  refine ⟨fun w hw => ?_, fun sr off s => ?_⟩
  · exact Decodes.exists_pc9 (.st (extractLsb'_of_and_eq hw (by decide)))
  · exact ⟨_, exec_of_storeOf rfl, s.isSum_pcRelative9 off, s.storesOnly_memWrite _ sr⟩

/-- Settles O15: the pointer is read in `s`, before the write, so its own cell is no exception. -/
theorem stiStoresThroughThePointer : Obligations.StiStoresThroughThePointer := by
  refine ⟨fun w hw => ?_, fun sr off s => ?_⟩
  · exact Decodes.exists_pc9 (.sti (extractLsb'_of_and_eq hw (by decide)))
  · exact ⟨_, exec_of_storeOf rfl, s.isSum_pcRelative9 off, s.storesOnly_memWrite _ sr⟩

/-- Settles O16: a store at the base-plus-offset address, with SR read in `s`, as BaseR is. -/
theorem strStoresAtBasePlusOffset : Obligations.StrStoresAtBasePlusOffset := by
  refine ⟨fun w hw => ?_, fun sr base off s => ?_⟩
  · exact Decodes.exists_base6 (.str (extractLsb'_of_and_eq hw (by decide)))
  · exact ⟨_, exec_of_storeOf rfl, s.isSum_baseOffset base off, s.storesOnly_memWrite _ sr⟩

end Sys2Proof.Proofs
end

section
/-! SUPPORT. What a TRAP leaves alone, who reads memory, and how one ends the run
(spec/43_trap_system.md R142, R150; spec/30_encoding.md R82). -/

namespace Sys2Proof

open Sys2Proof.Claims

theorem toNat_fieldVect (w : Word) : (fieldVect w).toNat = field w 7 0 := by
  rw [fieldVect, field_eq_toNat_extractLsb']

end Sys2Proof

namespace Sys2Proof.Machine

open Sys2Proof.Claims

variable (s : State)

/-- TRAP is trap entry and then the dispatcher: trap return changes nothing
(60_exceptions.md R176). -/
theorem exec_trap (v : Byte) : exec (.trap v) s = .next (s.enterTrap.dispatchTrap v) := rfl

@[simp] theorem State.reg_enterTrap_r7 : s.enterTrap.reg .r7 = s.pc := s.reg_setReg_same .r7 s.pc

@[simp] theorem State.reg_enterTrap_other {r : Reg} (hr : r ≠ .r7) : s.enterTrap.reg r = s.reg r :=
  s.reg_setReg_other .r7 r s.pc hr

/-- The frame of every vector, the undefined ones included (R150). -/
theorem State.trapFrame_dispatchTrap (v : Byte) :
    TrapFrame [.r0] s (s.enterTrap.dispatchTrap v) := by
  have hregs : SameRegsExcept [.r7, .r0] s (s.enterTrap.dispatchTrap v) := fun r hr => by
    obtain ⟨h7, h0⟩ : r ≠ .r7 ∧ r ≠ .r0 := by simpa using hr
    rw [State.reg_dispatchTrap_other _ v r h0, s.reg_enterTrap_other h7]
  exact ⟨by simp, by simp, by simp, hregs, fun a => by simp, by simp, by simp⟩

theorem trapFrame_of_exec {s t : State} {v : Byte} (h : exec (.trap v) s = .next t) :
    TrapFrame [.r0] s t := by
  cases h
  exact s.trapFrame_dispatchTrap v

/-- The frame of a TRAP that leaves R0 alone too. -/
theorem trapFrame_nil_of_exec {s t : State} {v : Byte} (h : exec (.trap v) s = .next t)
    (h0 : t.reg .r0 = s.reg .r0) : TrapFrame [] s t := by
  obtain ⟨h7, hpc, hcond, hregs, hrest⟩ := trapFrame_of_exec h
  refine ⟨h7, hpc, hcond, fun r hr => ?_, hrest⟩
  by_cases hr0 : r = .r0
  · rw [hr0, h0]
  · exact hregs r (by simpa [hr0] using hr)

/-- Only GETC and IN read the input, wait for it, or write R0 (R143, R146). -/
theorem State.dispatchTrap_input_of_not_read {v : Byte} (hgetc : v ≠ 0x20#8) (hin : v ≠ 0x23#8) :
    (s.dispatchTrap v).reg .r0 = s.reg .r0 ∧ (s.dispatchTrap v).inputWait = s.inputWait ∧
      (s.dispatchTrap v).consoleIn = s.consoleIn := by
  rcases s.dispatchTrap_cases v with ⟨hv, _⟩ | ⟨_, h⟩ | ⟨_, h⟩ | ⟨hv, _⟩ | ⟨_, h⟩ | ⟨_, h⟩ | ⟨_, h⟩
  on_goal 4 => exact absurd hv hin
  on_goal 1 => exact absurd hv hgetc
  all_goals simp [h]

/-- Only PUTS and PUTSP can enter an endless scan (R145, R147). -/
theorem State.dispatchTrap_openScan_of_not_scan {v : Byte} (hputs : v ≠ 0x22#8)
    (hputsp : v ≠ 0x24#8) : (s.dispatchTrap v).openScan = s.openScan := by
  rcases s.dispatchTrap_cases v with ⟨_, h⟩ | ⟨_, h⟩ | ⟨hv, _⟩ | ⟨_, h⟩ | ⟨hv, _⟩ | ⟨_, h⟩ | ⟨_, h⟩
  on_goal 5 => exact absurd hv hputsp
  on_goal 3 => exact absurd hv hputs
  all_goals simp [h]

/-- A console read does not look at memory. -/
theorem State.readChar_with_mem (k : ConsoleRead) (m : Memory) :
    State.readChar { s with mem := m } k = { s.readChar k with mem := m } := by
  rcases s.readChar_cases k with ⟨hin, h⟩ | ⟨c, rest, hin, ⟨rfl, h⟩ | ⟨rfl, h⟩⟩
  · rw [h]; exact State.readChar_blocks _ k hin
  · rw [h]; exact State.readChar_noEcho _ c rest hin
  · rw [h]; exact State.readChar_echo _ c rest hin

/-- Only PUTS and PUTSP look at memory (R145, R147). -/
theorem State.dispatchTrap_with_mem {v : Byte} (hputs : v ≠ 0x22#8) (hputsp : v ≠ 0x24#8)
    (m : Memory) :
    State.dispatchTrap { s with mem := m } v = { s.dispatchTrap v with mem := m } := by
  rcases s.dispatchTrap_cases v with ⟨rfl, h⟩ | ⟨rfl, h⟩ | ⟨hv, _⟩ | ⟨rfl, h⟩ | ⟨hv, _⟩ |
    ⟨rfl, h⟩ | ⟨hv, h⟩
  · rw [h]; exact s.readChar_with_mem .noEcho m
  · rfl
  · exact absurd hv hputs
  · rw [h]
    exact ((s.consoleWriteAll Config.inPrompt).consoleFlush).readChar_with_mem .echo m
  · exact absurd hv hputsp
  · rfl
  · rw [h, State.dispatchTrap_undefined _ hv]; rfl

/-- A TRAP that clears the running flag ends the run: the loop test of its own cycle halts the
machine (30_encoding.md R82), with PC and R7 at the address after it. -/
theorem endsTheRun_trap {v : Byte} (hstop : ∀ s : State, (s.dispatchTrap v).running = false) :
    EndsTheRun (.trap v) := by
  intro s hf hcur
  have hstep := step_of_exec hf (hcur ▸ exec_trap s.fetch v)
  have hhalted : (s.fetch.enterTrap.dispatchTrap v).loopTest.lifecycle = .halted := by
    simp [State.loopTest_lifecycle, hstop]
  obtain ⟨hrun, _⟩ := Proofs.haltedIsTerminal _ hhalted
  exact ⟨_, hstep, hhalted, by simp [hstop], by simp, by simp, hrun⟩

/-- An instruction whose handler is the identity: its cycle is the fetch alone
(30_encoding.md R80). -/
theorem step_of_exec_self {s : State} (hf : s.Fetching) (hrun : s.running = true)
    (hu : exec s.current s.fetch = .next s.fetch) :
    step s = .next { s with pc := s.pc + 1, ir := s.memRead s.pc } := by
  rw [step_of_exec hf hu, s.fetch.loopTest_of_running hrun]
  rfl

end Sys2Proof.Machine
end

section
/-! SUPPORT. A scan that ends writes the cells up to its end, and one without an end is carried on
for ever (spec/43_trap_system.md R145, R147; spec/92_eei_decisions.md D14). -/

namespace Sys2Proof.Machine

open Sys2Proof.Claims

/-! ### One cell, by its contents -/

theorem scanCell_puts_of_ne {w : Word} (h : w ≠ 0x0000#16) : scanCell .puts w = ([lo8 w], false) :=
  if_neg h

theorem scanCell_puts_zero : scanCell .puts 0x0000#16 = ([], true) := rfl

theorem scanCell_putsp_of_ne {w : Word} (h : lo8 w ≠ 0x00#8 ∧ hi8 w ≠ 0x00#8) :
    scanCell .putsp w = ([lo8 w, hi8 w], false) := by
  obtain ⟨hlo, hhi⟩ := h
  simp [scanCell, hlo, hhi]

theorem scanCell_putsp_of_zero {w : Word} (h : lo8 w = 0x00#8 ∨ hi8 w = 0x00#8) :
    scanCell .putsp w = (if lo8 w = 0x00#8 then [] else [lo8 w], true) := by
  by_cases hlo : lo8 w = 0x00#8
  · simp [scanCell, hlo]
  · simp [scanCell, hlo, h.resolve_left hlo]

/-! ### A scan up to its end -/

/-- `n + 1` cells from `a` upwards are the cell at `a` and `n` cells from `a + 1` upwards. -/
theorem flatMap_range_succ_addr (f : Word → List Byte) (a : Word) (n : Nat) :
    ((List.range (n + 1)).flatMap fun k => f (a + BitVec.ofNat 16 k)) =
      f a ++ (List.range n).flatMap fun k => f (a + 1 + BitVec.ofNat 16 k) := by
  simp only [← addr_succ]
  rw [List.range_succ_eq_map, List.flatMap_cons, List.flatMap_map, BitVec.add_zero]

/-- Cells that go on with `bytes`, then a cell that ends the scan with `last`: what is written. -/
theorem scanBytes_first_end {r : ScanRoutine} {m : Memory} {bytes : Word → List Byte}
    {last : List Byte} {n fuel : Nat} {a : Word} (hn : n < fuel)
    (hgo : ∀ k, k < n → scanCell r (m.read (a + BitVec.ofNat 16 k)) =
      (bytes (m.read (a + BitVec.ofNat 16 k)), false))
    (hend : scanCell r (m.read (a + BitVec.ofNat 16 n)) = (last, true)) :
    scanBytes r m fuel a = some
      (((List.range n).flatMap fun k => bytes (m.read (a + BitVec.ofNat 16 k))) ++ last) := by
  induction n generalizing a fuel with
  | zero =>
    obtain ⟨fuel, rfl⟩ := Nat.exists_eq_add_one_of_ne_zero hn.ne'
    rw [BitVec.add_zero] at hend
    rw [scanBytes_stop r m fuel a (by rw [hend]), hend]
    rfl
  | succ n ih =>
    obtain ⟨fuel, rfl⟩ := Nat.exists_eq_add_one_of_ne_zero (Nat.ne_zero_of_lt hn)
    obtain ⟨hfirst, hgo⟩ := Nat.forall_lt_succ_left.mp hgo
    simp only [addr_succ] at hgo hend
    rw [BitVec.add_zero] at hfirst
    rw [scanBytes_go r m fuel a (by rw [hfirst]), hfirst, ih (Nat.lt_of_succ_lt_succ hn) hgo hend]
    rw [flatMap_range_succ_addr (fun b => bytes (m.read b)), List.append_assoc]
    rfl

/-- The first cell of a kind is met before the addresses wrap around to the start. -/
theorem first_end_lt_scanLimit {p : Word → Bool} {a : Word} {n : Nat}
    (hgo : ∀ k, k < n → p (a + BitVec.ofNat 16 k) = false)
    (hend : p (a + BitVec.ofNat 16 n) = true) : n < scanLimit := by
  by_contra hge
  rw [scanLimit, Nat.not_lt] at hge
  have hwrap : BitVec.ofNat 16 (n - 65536) = BitVec.ofNat 16 n := by
    apply BitVec.eq_of_toNat_eq
    rw [BitVec.toNat_ofNat, BitVec.toNat_ofNat]
    omega
  have hearlier := hgo (n - 65536) (by omega)
  rw [hwrap, hend] at hearlier
  cases hearlier

/-! ### A scan without an end -/

theorem State.consoleWriteAll_append (s : State) (bs cs : List Byte) :
    (s.consoleWriteAll bs).consoleWriteAll cs = s.consoleWriteAll (bs ++ cs) :=
  congrArg (fun out => { s with consoleOut := out }) (List.append_assoc s.consoleOut bs cs)

/-- A step inside an endless scan writes one cell. -/
theorem step_of_openScan {s : State} {o : OpenScan} (hl : s.lifecycle = .running)
    (hw : s.inputWait = none) (ho : s.openScan = some o) : step s = .next (s.scanOneCell o) := by
  simp [step, (s.engineAction_scanOn_iff o).mpr ⟨hl, hw, ho⟩]

/-- Where no cell ends the scan, `n` steps write `n` cells and change nothing else but its place. -/
theorem run_openScan {r : ScanRoutine} {bytes : Word → List Byte} (n : Nat) {u : State} {a : Word}
    (hl : u.lifecycle = .running) (hw : u.inputWait = none)
    (ho : u.openScan = some { routine := r, addr := a })
    (hgo : ∀ b, scanCell r (u.memRead b) = (bytes (u.memRead b), false)) :
    Host.Core.run Sys2Proof.core n u = .next
      ((u.consoleWriteAll ((List.range n).flatMap fun k => bytes (cellFrom u a k))).setOpenScan
        (some { routine := r, addr := a + BitVec.ofNat 16 n })) := by
  induction n generalizing u a with
  | zero => simp [Host.Core.run, State.consoleWriteAll, State.setOpenScan, ← ho]
  | succ n ih =>
    have hstep : step u = .next ((u.consoleWriteAll (bytes (u.memRead a))).setOpenScan
        (some { routine := r, addr := a + 1 })) := by
      simp [step_of_openScan hl hw ho, State.scanOneCell, hgo]
    have hrest := ih (u := (u.consoleWriteAll (bytes (u.memRead a))).setOpenScan
      (some { routine := r, addr := a + 1 })) hl hw rfl hgo
    refine (core_run_step n _ _ hstep).trans (hrest.trans (congrArg Host.Outcome.next ?_))
    have hbytes : ((List.range (n + 1)).flatMap fun k => bytes (cellFrom u a k)) =
        bytes (u.memRead a) ++ (List.range n).flatMap fun k => bytes (cellFrom u (a + 1) k) :=
      flatMap_range_succ_addr (fun b => bytes (u.memRead b)) a n
    rw [hbytes, addr_succ, ← State.consoleWriteAll_append]
    rfl

end Sys2Proof.Machine
end

section
/-! SUPPORT. PUTS and PUTSP as instructions: one argument for both, over what a cell makes the scan
write (spec/43_trap_system.md R145, R147). -/

namespace Sys2Proof.Machine

open Sys2Proof.Claims

variable {s : State} {r : ScanRoutine} {bytes : Word → List Byte}

theorem exec_scan (s : State) (r : ScanRoutine) :
    exec (.trap r.vector) s = .next (s.enterTrap.runScan r) := by
  cases r <;> rfl

/-- The scan's string is written and flushed, and nothing else changes but R7. -/
theorem exec_scan_completes {last : List Byte} {n : Nat}
    (hgo : ∀ k, k < n → scanCell r (cellFrom s (s.reg .r0) k) =
      (bytes (cellFrom s (s.reg .r0) k), false))
    (hend : scanCell r (cellFrom s (s.reg .r0) n) = (last, true)) :
    ∃ t, exec (.trap r.vector) s = .next t ∧
      t.consoleOut = s.consoleOut ++
        (((List.range n).flatMap fun k => bytes (cellFrom s (s.reg .r0) k)) ++ last) ∧
      AllFlushed t ∧ t.consoleIn = s.consoleIn ∧ TrapFrame [] s t ∧ SameControl s t := by
  have hn : n < scanLimit :=
    first_end_lt_scanLimit (p := fun b => (scanCell r (s.memRead b)).2) (a := s.reg .r0)
      (fun k hk => congrArg Prod.snd (hgo k hk)) (congrArg Prod.snd hend)
  have hscan : scanBytes r s.mem scanLimit (s.reg .r0) =
      some (((List.range n).flatMap fun k => bytes (cellFrom s (s.reg .r0) k)) ++ last) :=
    scanBytes_first_end hn hgo hend
  have hexec : exec (.trap r.vector) s = .next (s.enterTrap.consoleWriteAll
      (((List.range n).flatMap fun k => bytes (cellFrom s (s.reg .r0) k)) ++
        last)).consoleFlush := by
    rw [exec_scan, State.runScan, State.enterTrap_mem, s.reg_enterTrap_other (by decide), hscan]
  exact ⟨_, hexec, rfl, rfl, rfl, trapFrame_nil_of_exec hexec rfl, ⟨rfl, rfl, rfl⟩, rfl, rfl, rfl⟩

/-- Where no cell of memory ends the scan, the instruction enters the endless scan. -/
theorem exec_scan_endless (hl : s.lifecycle = .running) (hw : s.inputWait = none)
    (hgo : ∀ a, scanCell r (s.memRead a) = (bytes (s.memRead a), false)) :
    ∃ t, exec (.trap r.vector) s = .next t ∧ TrapFrame [] s t ∧ EntersScanFrame s t ∧
      ScansForever bytes s t := by
  have hscan : scanBytes r s.mem scanLimit (s.reg .r0) = none :=
    (scanBytes_scanLimit_eq_none_iff r s.mem _).mpr fun b => congrArg Prod.snd (hgo b)
  have hexec : exec (.trap r.vector) s =
      .next (s.enterTrap.setOpenScan (some { routine := r, addr := s.reg .r0 })) := by
    rw [exec_scan, State.runScan, State.enterTrap_mem, s.reg_enterTrap_other (by decide), hscan]
  exact ⟨_, hexec, trapFrame_nil_of_exec hexec rfl, ⟨⟨rfl, rfl, rfl⟩, rfl, rfl, rfl⟩,
    fun n => ⟨_, run_openScan n hl hw rfl hgo⟩⟩

end Sys2Proof.Machine
end

section
/-! The statements about RTI, RES and TRAP's routines (spec/43_trap_system.md). -/

namespace Sys2Proof.Proofs

open Sys2Proof.Machine Sys2Proof.Claims

/-- Settles O17: the handler is the identity, so the cycle is the fetch (`step_of_exec_self`). -/
theorem rtiIsANoOp : Obligations.RtiIsANoOp := by
  refine ⟨fun w hw => ?_, fun s => rfl, fun s hf hrun hcur => ?_⟩
  · exact (Decodes.rti (extractLsb'_of_and_eq hw (by decide))).decode_eq
  · exact step_of_exec_self hf hrun (by rw [hcur]; rfl)

/-- Settles O18: as for RTI. -/
theorem resIsANoOp : Obligations.ResIsANoOp := by
  refine ⟨fun w hw => ?_, fun s => rfl, fun s hf hrun hcur => ?_⟩
  · exact (Decodes.res (extractLsb'_of_and_eq hw (by decide))).decode_eq
  · exact step_of_exec_self hf hrun (by rw [hcur]; rfl)

/-- Settles O19: the dispatcher's frame, and which routines touch the input or memory. -/
theorem trapLinksAndKeepsPcCondAndMemory : Obligations.TrapLinksAndKeepsPcCondAndMemory := by
  refine ⟨fun w hw => ?_, fun v s => ?_⟩
  · have hdec : Decodes w (.trap (fieldVect w)) := .trap (extractLsb'_of_and_eq hw (by decide))
    exact ⟨_, hdec.decode_eq, toNat_fieldVect w⟩
  · refine ⟨_, exec_trap s v, s.trapFrame_dispatchTrap v, fun hgetc hin => ?_,
      fun hputs hputsp => ⟨?_, fun m => ?_⟩⟩
    · exact s.enterTrap.dispatchTrap_input_of_not_read hgetc hin
    · exact s.enterTrap.dispatchTrap_openScan_of_not_scan hputs hputsp
    · exact congrArg Host.Outcome.next (s.enterTrap.dispatchTrap_with_mem hputs hputsp m)

/-- Settles O20: the read of an available character (`State.readChar_noEcho`), after trap entry. -/
theorem getcReadsOneCharacterWithoutEcho : Obligations.GetcReadsOneCharacterWithoutEcho := by
  refine ⟨by decide, fun s c rest hin => ?_⟩
  have hexec : exec Instr.getc s = .next _ :=
    congrArg Host.Outcome.next (s.enterTrap.readChar_noEcho c rest hin)
  exact ⟨_, hexec, toNat_zext8 c, rfl, rfl, rfl, rfl, trapFrame_of_exec hexec, rfl, rfl, rfl⟩

/-- Settles O21: the read of an available character (`State.readChar_echo`), after trap entry and
the prompt. -/
theorem inPromptsAndReadsWithEcho : Obligations.InPromptsAndReadsWithEcho := by
  refine ⟨by decide, fun s c rest hin => ?_⟩
  have hexec : exec Instr.inChar s = .next _ := congrArg Host.Outcome.next
    ((s.enterTrap.consoleWriteAll Config.inPrompt).consoleFlush.readChar_echo c rest hin)
  exact ⟨_, hexec, toNat_zext8 c, rfl, rfl, rfl, rfl, trapFrame_of_exec hexec, rfl, rfl, rfl⟩

/-- Settles O22: with no character a read only sets the wait (`State.readChar_blocks`). -/
theorem readWithoutInputBlocks : Obligations.ReadWithoutInputBlocks := by
  refine ⟨fun s hin => ?_, fun s hin => ?_⟩
  · have hexec : exec Instr.getc s = .next _ :=
      congrArg Host.Outcome.next (s.enterTrap.readChar_blocks .noEcho hin)
    exact ⟨_, hexec, rfl, trapFrame_nil_of_exec hexec rfl, ⟨rfl, rfl, rfl⟩, rfl, rfl, rfl⟩
  · have hexec : exec Instr.inChar s = .next _ := congrArg Host.Outcome.next
      ((s.enterTrap.consoleWriteAll Config.inPrompt).consoleFlush.readChar_blocks .echo hin)
    exact ⟨_, hexec, rfl, trapFrame_nil_of_exec hexec rfl, hin, rfl, rfl, rfl, rfl, rfl⟩

/-- Settles O23: the character is `lo8` of R0, which trap entry does not write. -/
theorem outWritesTheLowByte : Obligations.OutWritesTheLowByte := by
  refine ⟨by decide, fun s => ⟨s.enterTrap.trapOut, rfl, ⟨lo8 (s.reg .r0), toNat_lo8 _, rfl⟩, rfl,
    rfl, trapFrame_nil_of_exec (v := 0x21#8) rfl rfl, ⟨rfl, rfl, rfl⟩, rfl, rfl, rfl⟩⟩

/-- Settles O24: a nonzero cell is its low byte and goes on, a zero cell ends the scan. -/
theorem putsWritesUpToTheZeroCell : Obligations.PutsWritesUpToTheZeroCell := by
  refine ⟨by decide, fun s n hne hzero => ?_, fun s hl hw hne => ?_⟩
  · have h := exec_scan_completes (s := s) (bytes := fun w => [lo8 w])
      (fun k hk => scanCell_puts_of_ne (hne k hk)) (hzero ▸ scanCell_puts_zero)
    rwa [List.append_nil, ← List.map_eq_flatMap] at h
  · exact exec_scan_endless (r := .puts) hl hw fun a => scanCell_puts_of_ne (hne a)

/-- Settles O25: a cell without a zero byte is its two bytes and goes on, any other ends the scan,
with its low byte written unless that is the zero. -/
theorem putspWritesUpToTheZeroByte : Obligations.PutspWritesUpToTheZeroByte := by
  refine ⟨by decide, fun s n hne hzero => ?_, fun s hl hw hne => ?_⟩
  · have h := exec_scan_completes (s := s) (bytes := fun w => [lo8 w, hi8 w])
      (fun k hk => scanCell_putsp_of_ne (hne k hk)) (scanCell_putsp_of_zero hzero)
    rwa [← List.append_assoc] at h
  · exact exec_scan_endless (r := .putsp) hl hw fun a => scanCell_putsp_of_ne (hne a)

/-- Settles O26: the routine clears the running flag, so the run ends (`endsTheRun_trap`). -/
theorem haltWritesTheNoticeAndEndsTheRun : Obligations.HaltWritesTheNoticeAndEndsTheRun := by
  refine ⟨by decide, fun s => ?_, endsTheRun_trap fun s => rfl⟩
  exact ⟨s.enterTrap.trapHalt, rfl, rfl, rfl, rfl, rfl, trapFrame_nil_of_exec (v := 0x25#8) rfl rfl,
    rfl, rfl, rfl⟩

/-- Settles O41: `scanLimit` cells from any start are all of memory. -/
theorem scanFailsExactlyWithoutATerminator : Obligations.ScanFailsExactlyWithoutATerminator :=
  scanBytes_scanLimit_eq_none_iff

end Sys2Proof.Proofs
end

section
/-! SUPPORT. An undefined trap vector over a whole cycle (spec/60_exceptions.md R171, R172). -/

namespace Sys2Proof.Machine

/-- The vectors R70's table leaves out, as numbers. -/
theorem trapVectorDefined_eq_false_iff (v : Byte) :
    trapVectorDefined v = false ↔ v.toNat < 0x20 ∨ 0x25 < v.toNat := by
  rw [trapVectorDefined, Bool.and_eq_false_iff, decide_eq_false_iff_not, decide_eq_false_iff_not,
    BitVec.not_le, BitVec.not_le]
  exact Iff.rfl

/-- The cycle of an undefined vector raises the exception on the state after trap entry, and its own
loop test halts the machine (30_encoding.md R82). -/
theorem step_of_undefinedTrap {s : State} {v : Byte} (hv : trapVectorDefined v = false)
    (hf : s.Fetching) (hcur : s.current = .trap v) :
    step s = .next ((s.fetch.enterTrap.raiseUndefinedTrapVector v).setLifecycle .halted) := by
  have hexec : exec s.current s.fetch = .next (s.fetch.enterTrap.raiseUndefinedTrapVector v) :=
    hcur ▸ exec_undefinedTrap s.fetch hv
  rw [step_of_exec hf hexec, State.loopTest_of_stopped _ rfl]

end Sys2Proof.Machine
end

section
/-! SUPPORT. How the console moves over a read, a scan, a routine, a handler and a step
(spec/60_exceptions.md R181, R182). -/

namespace Sys2Proof.Machine

/-- From `s` to `t` the output is only appended to, and at most one character is consumed, the oldest. -/
def ConsoleAdvances (s t : State) : Prop :=
  (∃ bs, t.consoleOut = s.consoleOut ++ bs) ∧
    (t.consoleIn = s.consoleIn ∨ ∃ c, s.consoleIn = c :: t.consoleIn)

section

variable {s t : State}

theorem ConsoleAdvances.of_same (hout : t.consoleOut = s.consoleOut)
    (hin : t.consoleIn = s.consoleIn) : ConsoleAdvances s t :=
  ⟨⟨[], by simp [hout]⟩, .inl hin⟩

theorem ConsoleAdvances.of_append {bs : List Byte} (hout : t.consoleOut = s.consoleOut ++ bs)
    (hin : t.consoleIn = s.consoleIn) : ConsoleAdvances s t :=
  ⟨⟨bs, hout⟩, .inl hin⟩

/-- What was written before still counts as appended. -/
theorem ConsoleAdvances.after_consoleWriteAll {bs : List Byte}
    (h : ConsoleAdvances (s.consoleWriteAll bs) t) : ConsoleAdvances s t := by
  obtain ⟨⟨more, hout⟩, hin⟩ := h
  exact ⟨⟨bs ++ more, by simpa using hout⟩, hin⟩

end

variable (s : State)

/-- A read that blocks moves nothing, and one that does not takes the first pending character. -/
theorem State.consoleAdvances_readChar (k : ConsoleRead) : ConsoleAdvances s (s.readChar k) := by
  rcases s.readChar_cases k with ⟨_, h⟩ | ⟨c, rest, hin, ⟨_, h⟩ | ⟨_, h⟩⟩ <;> rw [h]
  · exact .of_same rfl rfl
  · exact ⟨⟨[], by simp⟩, .inr ⟨c, hin⟩⟩
  · exact ⟨⟨[c], rfl⟩, .inr ⟨c, hin⟩⟩

theorem State.consoleAdvances_runScan (r : ScanRoutine) : ConsoleAdvances s (s.runScan r) := by
  rcases s.runScan_cases r with ⟨bs, _, h⟩ | ⟨_, h⟩ <;> rw [h]
  · exact .of_append rfl rfl
  · exact .of_same rfl rfl

theorem State.consoleAdvances_scanOneCell (o : OpenScan) :
    ConsoleAdvances s (s.scanOneCell o) := by
  rcases s.scanOneCell_cases o with ⟨_, h⟩ | ⟨_, h⟩ <;> rw [h] <;> exact .of_append rfl rfl

theorem State.consoleAdvances_dispatchTrap (v : Byte) :
    ConsoleAdvances s (s.dispatchTrap v) := by
  rcases s.dispatchTrap_cases v with ⟨_, h⟩ | ⟨_, h⟩ | ⟨_, h⟩ | ⟨_, h⟩ | ⟨_, h⟩ | ⟨_, h⟩ |
    ⟨_, h⟩ <;> rw [h]
  · exact s.consoleAdvances_readChar .noEcho
  · exact .of_append rfl rfl
  · exact s.consoleAdvances_runScan .puts
  · have hread := (s.consoleWriteAll Config.inPrompt).consoleFlush.consoleAdvances_readChar .echo
    exact .after_consoleWriteAll hread
  · exact s.consoleAdvances_runScan .putsp
  · exact .of_append rfl rfl
  · exact .of_same rfl rfl

/-- Only a TRAP moves the console (60_exceptions.md R180). -/
theorem consoleAdvances_of_exec {i : Instr} {s t : State} (h : exec i s = .next t) :
    ConsoleAdvances s t := by
  cases execEffect_of_exec h with
  | trap v => exact s.enterTrap.consoleAdvances_dispatchTrap v
  | _ => exact .of_same rfl rfl

theorem consoleAdvances_of_step {s t : State} (h : step s = .next t) : ConsoleAdvances s t := by
  cases stepEffect_of_step h with
  | rest => exact .of_same rfl rfl
  | wait k => exact s.consoleAdvances_readChar k
  | scan o => exact s.consoleAdvances_scanOneCell o
  | cycle u _ hu =>
    have hfetched : ConsoleAdvances s.fetch u := consoleAdvances_of_exec hu
    simpa [ConsoleAdvances] using hfetched

end Sys2Proof.Machine
end

section
/-! The statements about the exception and the console (spec/60_exceptions.md). -/

namespace Sys2Proof.Proofs

open Sys2Proof.Machine Sys2Proof.Claims

/-- Settles O27: an undefined vector raises the exception after trap entry, where PC holds the TRAP's
address + 1, and the cycle's loop test halts the machine. -/
theorem undefinedVectorRecordsThePreciseFault :
    Obligations.UndefinedVectorRecordsThePreciseFault := by
  intro v hrange
  have hv := (trapVectorDefined_eq_false_iff v).mpr hrange
  refine ⟨fun s => exec_undefinedTrap s hv, endsTheRun_trap fun s => ?_, fun s t hf hcur h => ?_⟩
  · rw [s.dispatchTrap_undefined hv, State.raiseUndefinedTrapVector_running]
  · cases (step_of_undefinedTrap hv hf hcur).symm.trans h
    have haddr : s.pc + 1 - 1 = s.pc := BitVec.add_sub_cancel _ _
    have hregs (r : Reg) (hr : r ∉ [Reg.r7]) : s.fetch.enterTrap.reg r = s.reg r :=
      s.fetch.reg_enterTrap_other (List.ne_of_not_mem_cons hr)
    exact ⟨congrArg (some <| FaultRecord.undefinedTrapVector v ·) haddr, rfl, ⟨rfl, rfl, rfl⟩,
      fun _ => rfl, rfl, hregs⟩

/-- Settles O48: reads take the first pending character, and every write appends. -/
theorem consoleIsAppendedToAndConsumedInOrder :
    Obligations.ConsoleIsAppendedToAndConsumedInOrder :=
  fun _ _ h => consoleAdvances_of_step h

/-- Settles O37: each of the four things a step can be answers a state, a cycle because every handler
does (`exec_answers_next`). -/
theorem everyStepAnswersAState : Obligations.EveryStepAnswersAState := by
  intro s
  rcases step_cases s with ⟨_, h⟩ | ⟨_, _, h⟩ | ⟨_, _, h⟩ | ⟨_, _, _, h⟩ <;> exact ⟨_, h⟩

end Sys2Proof.Proofs
end

section
/-! SUPPORT. The host's operations and the state they start from, as rules: what loading images in order
leaves in memory (spec/20_memory.md R50, spec/92_eei_decisions.md D22), and what start does. -/

namespace Sys2Proof.Machine

open Sys2Proof.Claims

/-- Memory after loading images in the order given; `boot_eq_loadImages` ties it to the boot. -/
def Memory.loadImages (m : Memory) (images : List Image) : Memory :=
  images.foldl (fun m i => m.writeWords i.origin i.words) m

@[simp] theorem Memory.loadImages_nil (m : Memory) : m.loadImages [] = m := rfl

@[simp] theorem Memory.loadImages_cons (m : Memory) (i : Image) (is : List Image) :
    m.loadImages (i :: is) = (m.writeWords i.origin i.words).loadImages is := rfl

theorem Memory.loadImages_append (m : Memory) (is js : List Image) :
    m.loadImages (is ++ js) = (m.loadImages is).loadImages js :=
  List.foldl_append

/-- Loading images keeps the canonical form. -/
theorem Memory.wf_loadImages (images : List Image) (m : Memory) (h : m.wf) :
    (m.loadImages images).wf := by
  induction images generalizing m with
  | nil => exact h
  | cons i is ih => exact ih _ (Memory.wf_writeWords i.words m i.origin h)

/-- A cell that no image covers reads as before the loads. -/
theorem Memory.read_loadImages_uncovered (images : List Image) (m : Memory) (a : Word)
    (h : ∀ i ∈ images, ¬ Covers i a) : (m.loadImages images).read a = m.read a := by
  induction images generalizing m with
  | nil => rfl
  | cons i is ih =>
    have hi : ∀ k, k < i.words.length → i.origin + BitVec.ofNat 16 k ≠ a := fun k hk ha =>
      h i List.mem_cons_self ⟨k, hk, ha⟩
    rw [Memory.loadImages_cons, ih _ fun l hl => h l (List.mem_cons_of_mem i hl),
      Memory.read_writeWords_uncovered _ _ _ _ hi]

/-- The last word the images put in a cell is what the cell reads as after the loads: the images
before it are overwritten, and those after it do not reach the cell. -/
theorem Memory.read_loadImages_lastLoaded {images : List Image} (m : Memory) {a w : Word}
    (h : LastLoaded images a w) : (m.loadImages images).read a = w := by
  obtain ⟨before, i, after, k, rfl, hw, hk, hlast, hafter⟩ := h
  rw [Memory.loadImages_append, Memory.loadImages_cons,
    Memory.read_loadImages_uncovered after _ a hafter]
  exact Memory.read_writeWords_last _ _ _ _ k w hw hk hlast

theorem boot_eq_loadImages (images : List Image) (startPc : Word) :
    boot images startPc = some
      { State.reset with
        mem := Memory.loadImages [] images
        pc := startPc
        running := true
        lifecycle := .running } :=
  boot_eq images startPc

theorem State.hostStart_of_idle {s : State} (h : s.lifecycle = .idle) :
    s.hostStart = { s with running := true, lifecycle := .running } :=
  if_pos h

theorem State.hostStart_of_not_idle {s : State} (h : s.lifecycle ≠ .idle) : s.hostStart = s :=
  if_neg h

@[simp] theorem State.reg_reset (r : Reg) : State.reset.reg r = 0x0000#16 := by
  cases r <;> rfl

@[simp] theorem State.memRead_reset (a : Word) : State.reset.memRead a = 0x0000#16 :=
  Memory.read_nil a

/-- Construction's COND has no flag set, the first of the four legal values (10_state.md R23). -/
theorem State.condLegal_reset : State.reset.CondLegal := .inl rfl

/-- Most clauses speak of a fault, a wait, a scan or a stop, none of which the constructed state has. -/
theorem State.inv_reset : State.reset.Inv where
  memWf := State.reset_mem_wf
  condLegal := State.condLegal_reset
  runningIff := by decide
  faultHalted := fun h => absurd rfl h
  faultRecord := by simp [State.reset]
  waitInTrap := by simp [State.reset]
  scanInTrap := by simp [State.reset]
  scanEndless := by simp [State.reset]
  stoppedInTrap := by simp [State.reset]
  flushedLe := le_rfl

/-- The state a boot answers is fetching, so the invariant asks only for what construction and the
loads give. -/
theorem State.inv_of_boot {images : List Image} {startPc : Word} {s : State}
    (h : boot images startPc = some s) : s.Inv := by
  cases (boot_eq_loadImages images startPc).symm.trans h
  exact (State.inv_iff_of_fetching _ ⟨rfl, rfl, rfl⟩).mpr
    ⟨Memory.wf_loadImages images [] Memory.wf_nil, State.condLegal_reset, rfl, rfl, le_rfl⟩

end Sys2Proof.Machine
end

section
/-! The statements about reset and boot (spec/70_reset_and_hazards.md). -/

namespace Sys2Proof.Proofs

open Sys2Proof.Machine Sys2Proof.Claims

/-- Settles O51: a boot is the constructed state with its memory loaded, and a cell of that memory is
read by whether an image covers it. -/
theorem bootStartsTheLoadedProgram : Obligations.BootStartsTheLoadedProgram := by
  intro images startPc
  have hboot := boot_eq_loadImages images startPc
  exact ⟨_, hboot, State.inv_of_boot hboot, ⟨rfl, rfl, rfl⟩, rfl, rfl, State.reg_reset, rfl, rfl,
    fun _ _ hlast => Memory.read_loadImages_lastLoaded [] hlast,
    fun a hnone => Memory.read_loadImages_uncovered images [] a hnone, rfl⟩

/-- Settles O39: start tests for Idle. -/
theorem startRunsAnIdleMachine : Obligations.StartRunsAnIdleMachine :=
  fun _ => ⟨State.hostStart_of_idle, State.hostStart_of_not_idle⟩

/-- Settles O50: the registers and the cells by their lemmas, the other elements as written in
`State.reset`. -/
theorem resetIsTheConstructedState : Obligations.ResetIsTheConstructedState :=
  ⟨State.reg_reset, rfl, rfl, rfl, rfl, rfl, rfl, rfl, State.memRead_reset⟩

/-- Settles O52, by `State.inv_reset`. -/
theorem resetHasTheInvariant : Obligations.ResetHasTheInvariant := State.inv_reset

end Sys2Proof.Proofs
end
